-- ==== Sys2Proof/Word.lean ====
section
/-!
DEFINITION. The value types of the block: bytes, 16-bit words and text (00_scope.md rules R8 and R9).
-/

namespace Sys2Proof

/-- A byte of the buffer, an opcode or an 8-bit immediate (R7 `BYTE_BITS` = 8, R8). -/
abbrev Byte := BitVec 8

/-- A 16-bit value: an offset as it is printed, or a 16-bit immediate (R8). -/
abbrev Word16 := BitVec 16

/-- Text is a finite sequence of characters (R9); every character this block writes is ASCII. -/
abbrev Text := List Char

/-- The text of one instruction without its newline (R12 "Line"). -/
abbrev Line := Text

end Sys2Proof
end

