-- ==== Sys2Proof/Syntax.lean ====
section
/-!
DEFINITION. The instructions of the opcode map (30_encoding.md rule R64), one constructor for each mnemonic rule
(R200 to R295, and R104 for the sentinel `--`). The rows of spec/opcode_table.json that share a mnemonic and a
rule differ only in the register names their descriptor holds; those names are the constructor's operands.
-/

namespace Sys2Proof

/-- The 8-bit register names, in the order of their codes 0 to 7 (R62). They are names only: the block has no
registers (R21). -/
inductive Reg8
  | b
  | c
  | d
  | e
  | h
  | l
  | m
  | a
  deriving DecidableEq, Repr

/-- The register-pair names of LXI, INX, DAD and DCX, codes 0 to 3 (R62, R201, R203, R208, R210). -/
inductive RegPair
  | b
  | d
  | h
  | sp
  deriving DecidableEq, Repr

/-- The register-pair names of PUSH and POP, where code 3 is `PSW` (R62, R251, R255). -/
inductive StackPair
  | b
  | d
  | h
  | psw
  deriving DecidableEq, Repr

/-- The register-pair names of STAX and LDAX: "only pairs `B` and `D` exist" (R202, R209). -/
inductive IndexPair
  | b
  | d
  deriving DecidableEq, Repr

/-- An instruction as its bytes give it: the opcode's mnemonic and register names, and the immediate that the
bytes at +1 and +2 hold (R61, R63). -/
inductive Instr
  /-- `NOP`, opcode 0x00 (R200). -/
  | nop
  /-- `LXI`, 4 opcodes from 0x01 (R201). -/
  | lxi (pair : RegPair) (imm : Word16)
  /-- `STAX`, 2 opcodes from 0x02 (R202). -/
  | stax (r : IndexPair)
  /-- `INX`, 4 opcodes from 0x03 (R203). -/
  | inx (r : RegPair)
  /-- `INR`, 8 opcodes from 0x04 (R204). -/
  | inr (r : Reg8)
  /-- `DCR`, 8 opcodes from 0x05 (R205). -/
  | dcr (r : Reg8)
  /-- `MVI`, 8 opcodes from 0x06 (R206). -/
  | mvi (r : Reg8) (imm : Byte)
  /-- `RLC`, opcode 0x07 (R207). -/
  | rlc
  /-- `DAD`, 4 opcodes from 0x09 (R208). -/
  | dad (r : RegPair)
  /-- `LDAX`, 2 opcodes from 0x0A (R209). -/
  | ldax (r : IndexPair)
  /-- `DCX`, 4 opcodes from 0x0B (R210). -/
  | dcx (r : RegPair)
  /-- `RRC`, opcode 0x0F (R211). -/
  | rrc
  /-- `RAL`, opcode 0x17 (R212). -/
  | ral
  /-- `RAR`, opcode 0x1F (R213). -/
  | rar
  /-- `SHLD`, opcode 0x22 (R214). -/
  | shld (imm : Word16)
  /-- `DAA`, opcode 0x27 (R215). -/
  | daa
  /-- `LHLD`, opcode 0x2A (R216). -/
  | lhld (imm : Word16)
  /-- `CMA`, opcode 0x2F (R217). -/
  | cma
  /-- `STA`, opcode 0x32 (R218). -/
  | sta (imm : Word16)
  /-- `STC`, opcode 0x37 (R219). -/
  | stc
  /-- `LDA`, opcode 0x3A (R220). -/
  | lda (imm : Word16)
  /-- `CMC`, opcode 0x3F (R221). -/
  | cmc
  /-- `MOV`, 63 opcodes from 0x40 (R230). -/
  | mov (dst : Reg8) (src : Reg8)
  /-- `HLT`, opcode 0x76 (R231). -/
  | hlt
  /-- `ADD`, 8 opcodes from 0x80 (R240). -/
  | add (r : Reg8)
  /-- `ADC`, 8 opcodes from 0x88 (R241). -/
  | adc (r : Reg8)
  /-- `SUB`, 8 opcodes from 0x90 (R242). -/
  | sub (r : Reg8)
  /-- `SBB`, 8 opcodes from 0x98 (R243). -/
  | sbb (r : Reg8)
  /-- `ANA`, 8 opcodes from 0xA0 (R244). -/
  | ana (r : Reg8)
  /-- `XRA`, 8 opcodes from 0xA8 (R245). -/
  | xra (r : Reg8)
  /-- `ORA`, 8 opcodes from 0xB0 (R246). -/
  | ora (r : Reg8)
  /-- `CMP`, 8 opcodes from 0xB8 (R247). -/
  | cmp (r : Reg8)
  /-- `RNZ`, opcode 0xC0 (R250). -/
  | rnz
  /-- `POP`, 4 opcodes from 0xC1 (R251). -/
  | pop (r : StackPair)
  /-- `JNZ`, opcode 0xC2 (R252). -/
  | jnz (imm : Word16)
  /-- `JMP`, opcode 0xC3 (R253). -/
  | jmp (imm : Word16)
  /-- `CNZ`, opcode 0xC4 (R254). -/
  | cnz (imm : Word16)
  /-- `PUSH`, 4 opcodes from 0xC5 (R255). -/
  | push (r : StackPair)
  /-- `ADI`, opcode 0xC6 (R256). -/
  | adi (imm : Byte)
  /-- `RST`, 8 opcodes from 0xC7 (R257). -/
  | rst (n : Fin 8)
  /-- `RZ`, opcode 0xC8 (R258). -/
  | rz
  /-- `RET`, opcode 0xC9 (R259). -/
  | ret
  /-- `JZ`, opcode 0xCA (R260). -/
  | jz (imm : Word16)
  /-- `CZ`, opcode 0xCC (R261). -/
  | cz (imm : Word16)
  /-- `CALL`, opcode 0xCD (R262). -/
  | call (imm : Word16)
  /-- `ACI`, opcode 0xCE (R263). -/
  | aci (imm : Byte)
  /-- `RNC`, opcode 0xD0 (R264). -/
  | rnc
  /-- `JNC`, opcode 0xD2 (R265). -/
  | jnc (imm : Word16)
  /-- `OUT`, opcode 0xD3 (R266). -/
  | outp (imm : Byte)
  /-- `CNC`, opcode 0xD4 (R267). -/
  | cnc (imm : Word16)
  /-- `SUI`, opcode 0xD6 (R268). -/
  | sui (imm : Byte)
  /-- `RC`, opcode 0xD8 (R269). -/
  | rc
  /-- `JC`, opcode 0xDA (R270). -/
  | jc (imm : Word16)
  /-- `IN`, opcode 0xDB (R271). -/
  | inp (imm : Byte)
  /-- `CC`, opcode 0xDC (R272). -/
  | cc (imm : Word16)
  /-- `SBI`, opcode 0xDE (R273). -/
  | sbi (imm : Byte)
  /-- `RPO`, opcode 0xE0 (R274). -/
  | rpo
  /-- `JPO`, opcode 0xE2 (R275). -/
  | jpo (imm : Word16)
  /-- `XTHL`, opcode 0xE3 (R276). -/
  | xthl
  /-- `CPO`, opcode 0xE4 (R277). -/
  | cpo (imm : Word16)
  /-- `ANI`, opcode 0xE6 (R278). -/
  | ani (imm : Byte)
  /-- `RPE`, opcode 0xE8 (R279). -/
  | rpe
  /-- `PCHL`, opcode 0xE9 (R280). -/
  | pchl
  /-- `JPE`, opcode 0xEA (R281). -/
  | jpe (imm : Word16)
  /-- `XCHG`, opcode 0xEB (R282). -/
  | xchg
  /-- `CPE`, opcode 0xEC (R283). -/
  | cpe (imm : Word16)
  /-- `XRI`, opcode 0xEE (R284). -/
  | xri (imm : Byte)
  /-- `RP`, opcode 0xF0 (R285). -/
  | rp
  /-- `JP`, opcode 0xF2 (R286). -/
  | jp (imm : Word16)
  /-- `DI`, opcode 0xF3 (R287). -/
  | di
  /-- `CP`, opcode 0xF4 (R288). -/
  | cp (imm : Word16)
  /-- `ORI`, opcode 0xF6 (R289). -/
  | ori (imm : Byte)
  /-- `RM`, opcode 0xF8 (R290). -/
  | rm
  /-- `SPHL`, opcode 0xF9 (R291). -/
  | sphl
  /-- `JM`, opcode 0xFA (R292). -/
  | jm (imm : Word16)
  /-- `EI`, opcode 0xFB (R293). -/
  | ei
  /-- `CM`, opcode 0xFC (R294). -/
  | cm (imm : Word16)
  /-- `CPI`, opcode 0xFE (R295). -/
  | cpi (imm : Byte)
  /-- `--`, the sentinel of an opcode `op` the instruction set leaves undefined (R104, R105). -/
  | undef (op : Byte)
  deriving DecidableEq, Repr

end Sys2Proof
end

