-- ==== Sys2Proof/WellFormed.lean ====
section
/-!
DEFINITION. Which terms of `Instr` stand for a row of the opcode map. The operand types already exclude every other
register name; two checks are left: MOV has no form with `M` on both sides, and `--` stands for exactly twelve opcodes.
-/

namespace Sys2Proof

/-- `UNDEF`, the opcodes whose ROM entry is the sentinel (R105; R66; log entry 7). -/
def undefinedOpcodes : List Byte :=
  [0x08, 0x10, 0x18, 0x20, 0x28, 0x30, 0x38, 0xCB, 0xD9, 0xDD, 0xED, 0xFD]

/-- `0b01dddsss` is MOV except for `(ddd, sss) = (6, 6)`, which is HLT (R230, R231). -/
def movFormExists (dst src : Reg8) : Bool :=
  !(dst == .m && src == .m)

/-- The sentinel is the entry of the opcodes of `UNDEF` and of no other opcode (R105). -/
def isUndefinedOpcode (op : Byte) : Bool :=
  undefinedOpcodes.contains op

/-- The instruction is one of the opcode map's. -/
def Instr.wellFormed : Instr → Bool
  | .nop => true
  | .lxi _ _ => true
  | .stax _ => true
  | .inx _ => true
  | .inr _ => true
  | .dcr _ => true
  | .mvi _ _ => true
  | .rlc => true
  | .dad _ => true
  | .ldax _ => true
  | .dcx _ => true
  | .rrc => true
  | .ral => true
  | .rar => true
  | .shld _ => true
  | .daa => true
  | .lhld _ => true
  | .cma => true
  | .sta _ => true
  | .stc => true
  | .lda _ => true
  | .cmc => true
  | .mov dst src => movFormExists dst src
  | .hlt => true
  | .add _ => true
  | .adc _ => true
  | .sub _ => true
  | .sbb _ => true
  | .ana _ => true
  | .xra _ => true
  | .ora _ => true
  | .cmp _ => true
  | .rnz => true
  | .pop _ => true
  | .jnz _ => true
  | .jmp _ => true
  | .cnz _ => true
  | .push _ => true
  | .adi _ => true
  | .rst _ => true
  | .rz => true
  | .ret => true
  | .jz _ => true
  | .cz _ => true
  | .call _ => true
  | .aci _ => true
  | .rnc => true
  | .jnc _ => true
  | .outp _ => true
  | .cnc _ => true
  | .sui _ => true
  | .rc => true
  | .jc _ => true
  | .inp _ => true
  | .cc _ => true
  | .sbi _ => true
  | .rpo => true
  | .jpo _ => true
  | .xthl => true
  | .cpo _ => true
  | .ani _ => true
  | .rpe => true
  | .pchl => true
  | .jpe _ => true
  | .xchg => true
  | .cpe _ => true
  | .xri _ => true
  | .rp => true
  | .jp _ => true
  | .di => true
  | .cp _ => true
  | .ori _ => true
  | .rm => true
  | .sphl => true
  | .jm _ => true
  | .ei => true
  | .cm _ => true
  | .cpi _ => true
  | .undef op => isUndefinedOpcode op

end Sys2Proof
end

