-- ==== Sys2Proof/Decode.lean ====
section
/-!
DEFINITION. The decoder, a flat table of 256 entries that looks at no bit field (R60, R62, R64), and after it the
encoder, written from the encodings that the rule of each mnemonic gives.
-/

namespace Sys2Proof

/-! ## The opcode map, one row for each high hex digit (R64). Immediates stand as 0 until the operand bytes are read. -/

/-- R64, row 0x. -/
def opcodeRow0 : List Instr :=
  [.nop, .lxi .b 0, .stax .b, .inx .b,
   .inr .b, .dcr .b, .mvi .b 0, .rlc,
   .undef 0x08, .dad .b, .ldax .b, .dcx .b,
   .inr .c, .dcr .c, .mvi .c 0, .rrc]

/-- R64, row 1x. -/
def opcodeRow1 : List Instr :=
  [.undef 0x10, .lxi .d 0, .stax .d, .inx .d,
   .inr .d, .dcr .d, .mvi .d 0, .ral,
   .undef 0x18, .dad .d, .ldax .d, .dcx .d,
   .inr .e, .dcr .e, .mvi .e 0, .rar]

/-- R64, row 2x. -/
def opcodeRow2 : List Instr :=
  [.undef 0x20, .lxi .h 0, .shld 0, .inx .h,
   .inr .h, .dcr .h, .mvi .h 0, .daa,
   .undef 0x28, .dad .h, .lhld 0, .dcx .h,
   .inr .l, .dcr .l, .mvi .l 0, .cma]

/-- R64, row 3x. -/
def opcodeRow3 : List Instr :=
  [.undef 0x30, .lxi .sp 0, .sta 0, .inx .sp,
   .inr .m, .dcr .m, .mvi .m 0, .stc,
   .undef 0x38, .dad .sp, .lda 0, .dcx .sp,
   .inr .a, .dcr .a, .mvi .a 0, .cmc]

/-- R64, row 4x. -/
def opcodeRow4 : List Instr :=
  [.mov .b .b, .mov .b .c, .mov .b .d, .mov .b .e,
   .mov .b .h, .mov .b .l, .mov .b .m, .mov .b .a,
   .mov .c .b, .mov .c .c, .mov .c .d, .mov .c .e,
   .mov .c .h, .mov .c .l, .mov .c .m, .mov .c .a]

/-- R64, row 5x. -/
def opcodeRow5 : List Instr :=
  [.mov .d .b, .mov .d .c, .mov .d .d, .mov .d .e,
   .mov .d .h, .mov .d .l, .mov .d .m, .mov .d .a,
   .mov .e .b, .mov .e .c, .mov .e .d, .mov .e .e,
   .mov .e .h, .mov .e .l, .mov .e .m, .mov .e .a]

/-- R64, row 6x. -/
def opcodeRow6 : List Instr :=
  [.mov .h .b, .mov .h .c, .mov .h .d, .mov .h .e,
   .mov .h .h, .mov .h .l, .mov .h .m, .mov .h .a,
   .mov .l .b, .mov .l .c, .mov .l .d, .mov .l .e,
   .mov .l .h, .mov .l .l, .mov .l .m, .mov .l .a]

/-- R64, row 7x. -/
def opcodeRow7 : List Instr :=
  [.mov .m .b, .mov .m .c, .mov .m .d, .mov .m .e,
   .mov .m .h, .mov .m .l, .hlt, .mov .m .a,
   .mov .a .b, .mov .a .c, .mov .a .d, .mov .a .e,
   .mov .a .h, .mov .a .l, .mov .a .m, .mov .a .a]

/-- R64, row 8x. -/
def opcodeRow8 : List Instr :=
  [.add .b, .add .c, .add .d, .add .e,
   .add .h, .add .l, .add .m, .add .a,
   .adc .b, .adc .c, .adc .d, .adc .e,
   .adc .h, .adc .l, .adc .m, .adc .a]

/-- R64, row 9x. -/
def opcodeRow9 : List Instr :=
  [.sub .b, .sub .c, .sub .d, .sub .e,
   .sub .h, .sub .l, .sub .m, .sub .a,
   .sbb .b, .sbb .c, .sbb .d, .sbb .e,
   .sbb .h, .sbb .l, .sbb .m, .sbb .a]

/-- R64, row Ax. -/
def opcodeRowA : List Instr :=
  [.ana .b, .ana .c, .ana .d, .ana .e,
   .ana .h, .ana .l, .ana .m, .ana .a,
   .xra .b, .xra .c, .xra .d, .xra .e,
   .xra .h, .xra .l, .xra .m, .xra .a]

/-- R64, row Bx. -/
def opcodeRowB : List Instr :=
  [.ora .b, .ora .c, .ora .d, .ora .e,
   .ora .h, .ora .l, .ora .m, .ora .a,
   .cmp .b, .cmp .c, .cmp .d, .cmp .e,
   .cmp .h, .cmp .l, .cmp .m, .cmp .a]

/-- R64, row Cx. -/
def opcodeRowC : List Instr :=
  [.rnz, .pop .b, .jnz 0, .jmp 0,
   .cnz 0, .push .b, .adi 0, .rst 0,
   .rz, .ret, .jz 0, .undef 0xCB,
   .cz 0, .call 0, .aci 0, .rst 1]

/-- R64, row Dx. -/
def opcodeRowD : List Instr :=
  [.rnc, .pop .d, .jnc 0, .outp 0,
   .cnc 0, .push .d, .sui 0, .rst 2,
   .rc, .undef 0xD9, .jc 0, .inp 0,
   .cc 0, .undef 0xDD, .sbi 0, .rst 3]

/-- R64, row Ex. -/
def opcodeRowE : List Instr :=
  [.rpo, .pop .h, .jpo 0, .xthl,
   .cpo 0, .push .h, .ani 0, .rst 4,
   .rpe, .pchl, .jpe 0, .xchg,
   .cpe 0, .undef 0xED, .xri 0, .rst 5]

/-- R64, row Fx. -/
def opcodeRowF : List Instr :=
  [.rp, .pop .psw, .jp 0, .di,
   .cp 0, .push .psw, .ori 0, .rst 6,
   .rm, .sphl, .jm 0, .ei,
   .cm 0, .undef 0xFD, .cpi 0, .rst 7]

/-- The opcode map of R64 in opcode order. -/
def opcodeMap : List Instr :=
  opcodeRow0 ++ opcodeRow1 ++ opcodeRow2 ++ opcodeRow3 ++ opcodeRow4 ++ opcodeRow5 ++ opcodeRow6 ++ opcodeRow7 ++
  opcodeRow8 ++ opcodeRow9 ++ opcodeRowA ++ opcodeRowB ++ opcodeRowC ++ opcodeRowD ++ opcodeRowE ++ opcodeRowF

/-- Totality of the map (R101): a missing entry stops the build here. -/
theorem opcodeMap_length : opcodeMap.length = 256 := by simp only [opcodeMap, List.length_append]; rfl

theorem opcode_in_map (op : Byte) : op.toNat < opcodeMap.length := by
  rw [opcodeMap_length]; exact op.isLt

/-- The 16-bit immediate: low byte at +1, high byte at +2 (R42, R63). -/
def imm16 (lo hi : Byte) : Word16 := hi ++ lo

/-- The instruction with the immediate its operand bytes hold; one without it stays as it is (R61, R63). -/
def Instr.withOperand (lo hi : Byte) : Instr → Instr
  | .nop => .nop
  | .lxi pair _ => .lxi pair (imm16 lo hi)
  | .stax r => .stax r
  | .inx r => .inx r
  | .inr r => .inr r
  | .dcr r => .dcr r
  | .mvi r _ => .mvi r lo
  | .rlc => .rlc
  | .dad r => .dad r
  | .ldax r => .ldax r
  | .dcx r => .dcx r
  | .rrc => .rrc
  | .ral => .ral
  | .rar => .rar
  | .shld _ => .shld (imm16 lo hi)
  | .daa => .daa
  | .lhld _ => .lhld (imm16 lo hi)
  | .cma => .cma
  | .sta _ => .sta (imm16 lo hi)
  | .stc => .stc
  | .lda _ => .lda (imm16 lo hi)
  | .cmc => .cmc
  | .mov dst src => .mov dst src
  | .hlt => .hlt
  | .add r => .add r
  | .adc r => .adc r
  | .sub r => .sub r
  | .sbb r => .sbb r
  | .ana r => .ana r
  | .xra r => .xra r
  | .ora r => .ora r
  | .cmp r => .cmp r
  | .rnz => .rnz
  | .pop r => .pop r
  | .jnz _ => .jnz (imm16 lo hi)
  | .jmp _ => .jmp (imm16 lo hi)
  | .cnz _ => .cnz (imm16 lo hi)
  | .push r => .push r
  | .adi _ => .adi lo
  | .rst n => .rst n
  | .rz => .rz
  | .ret => .ret
  | .jz _ => .jz (imm16 lo hi)
  | .cz _ => .cz (imm16 lo hi)
  | .call _ => .call (imm16 lo hi)
  | .aci _ => .aci lo
  | .rnc => .rnc
  | .jnc _ => .jnc (imm16 lo hi)
  | .outp _ => .outp lo
  | .cnc _ => .cnc (imm16 lo hi)
  | .sui _ => .sui lo
  | .rc => .rc
  | .jc _ => .jc (imm16 lo hi)
  | .inp _ => .inp lo
  | .cc _ => .cc (imm16 lo hi)
  | .sbi _ => .sbi lo
  | .rpo => .rpo
  | .jpo _ => .jpo (imm16 lo hi)
  | .xthl => .xthl
  | .cpo _ => .cpo (imm16 lo hi)
  | .ani _ => .ani lo
  | .rpe => .rpe
  | .pchl => .pchl
  | .jpe _ => .jpe (imm16 lo hi)
  | .xchg => .xchg
  | .cpe _ => .cpe (imm16 lo hi)
  | .xri _ => .xri lo
  | .rp => .rp
  | .jp _ => .jp (imm16 lo hi)
  | .di => .di
  | .cp _ => .cp (imm16 lo hi)
  | .ori _ => .ori lo
  | .rm => .rm
  | .sphl => .sphl
  | .jm _ => .jm (imm16 lo hi)
  | .ei => .ei
  | .cm _ => .cm (imm16 lo hi)
  | .cpi _ => .cpi lo
  | .undef op => .undef op

/-- The instruction of an opcode and the two bytes after it; the opcode alone says which are operands (R60). -/
def decodeOpcode (op lo hi : Byte) : Instr :=
  (opcodeMap[op.toNat]'(opcode_in_map op)).withOperand lo hi

/-- Why a byte sequence is no instruction. Every opcode has an entry (R101), so only the absence of an opcode is left. -/
inductive DecodeReject
  /-- There is no byte to decode (R139). Raised for the empty sequence; safe. -/
  | noByte
  deriving DecidableEq, Repr

/-- The instruction at the front of a byte sequence. A missing operand byte counts as 00 (R121). -/
def decode : List Byte → Except DecodeReject Instr
  | [] => .error .noByte
  | op :: operands => .ok (decodeOpcode op (operands.getD 0 0) (operands.getD 1 0))

/-! ## The encoder -/

/-- Register codes 0 to 7 are `B C D E H L M A` (R62; R230 `REG`). -/
def Reg8.code : Reg8 → Nat
  | .b => 0
  | .c => 1
  | .d => 2
  | .e => 3
  | .h => 4
  | .l => 5
  | .m => 6
  | .a => 7

/-- Pair codes 0 to 3 are `B D H SP` (R62). -/
def RegPair.code : RegPair → Nat
  | .b => 0
  | .d => 1
  | .h => 2
  | .sp => 3

/-- Pair codes 0 to 3 are `B D H PSW` for PUSH and POP (R62). -/
def StackPair.code : StackPair → Nat
  | .b => 0
  | .d => 1
  | .h => 2
  | .psw => 3

/-- Pair codes 0 and 1 are `B D` for STAX and LDAX (R62, R202, R209). -/
def IndexPair.code : IndexPair → Nat
  | .b => 0
  | .d => 1

/-- A base pattern with a 3-bit code in `op[5:3]` (R62: INR, DCR, MVI, RST). -/
def withCode543 (base code : Nat) : Byte := BitVec.ofNat 8 (base + 8 * code)

/-- A base pattern with a 3-bit code in `op[2:0]` (R62: the register arithmetic and logic rows). -/
def withCode210 (base code : Nat) : Byte := BitVec.ofNat 8 (base + code)

/-- A base pattern with a 2-bit pair code in `op[5:4]` (R62: LXI, INX, DAD, DCX, STAX, LDAX, PUSH, POP). -/
def withCode54 (base code : Nat) : Byte := BitVec.ofNat 8 (base + 16 * code)

/-- The opcode byte of an instruction, from the "Encoding" of its mnemonic's rule. -/
def opcodeOf : Instr → Byte
  | .nop => 0x00
  | .lxi pair _ => withCode54 0x01 pair.code
  | .stax r => withCode54 0x02 r.code
  | .inx r => withCode54 0x03 r.code
  | .inr r => withCode543 0x04 r.code
  | .dcr r => withCode543 0x05 r.code
  | .mvi r _ => withCode543 0x06 r.code
  | .rlc => 0x07
  | .dad r => withCode54 0x09 r.code
  | .ldax r => withCode54 0x0A r.code
  | .dcx r => withCode54 0x0B r.code
  | .rrc => 0x0F
  | .ral => 0x17
  | .rar => 0x1F
  | .shld _ => 0x22
  | .daa => 0x27
  | .lhld _ => 0x2A
  | .cma => 0x2F
  | .sta _ => 0x32
  | .stc => 0x37
  | .lda _ => 0x3A
  | .cmc => 0x3F
  | .mov dst src => BitVec.ofNat 8 (0x40 + 8 * dst.code + src.code)
  | .hlt => 0x76
  | .add r => withCode210 0x80 r.code
  | .adc r => withCode210 0x88 r.code
  | .sub r => withCode210 0x90 r.code
  | .sbb r => withCode210 0x98 r.code
  | .ana r => withCode210 0xA0 r.code
  | .xra r => withCode210 0xA8 r.code
  | .ora r => withCode210 0xB0 r.code
  | .cmp r => withCode210 0xB8 r.code
  | .rnz => 0xC0
  | .pop r => withCode54 0xC1 r.code
  | .jnz _ => 0xC2
  | .jmp _ => 0xC3
  | .cnz _ => 0xC4
  | .push r => withCode54 0xC5 r.code
  | .adi _ => 0xC6
  | .rst n => withCode543 0xC7 n.val
  | .rz => 0xC8
  | .ret => 0xC9
  | .jz _ => 0xCA
  | .cz _ => 0xCC
  | .call _ => 0xCD
  | .aci _ => 0xCE
  | .rnc => 0xD0
  | .jnc _ => 0xD2
  | .outp _ => 0xD3
  | .cnc _ => 0xD4
  | .sui _ => 0xD6
  | .rc => 0xD8
  | .jc _ => 0xDA
  | .inp _ => 0xDB
  | .cc _ => 0xDC
  | .sbi _ => 0xDE
  | .rpo => 0xE0
  | .jpo _ => 0xE2
  | .xthl => 0xE3
  | .cpo _ => 0xE4
  | .ani _ => 0xE6
  | .rpe => 0xE8
  | .pchl => 0xE9
  | .jpe _ => 0xEA
  | .xchg => 0xEB
  | .cpe _ => 0xEC
  | .xri _ => 0xEE
  | .rp => 0xF0
  | .jp _ => 0xF2
  | .di => 0xF3
  | .cp _ => 0xF4
  | .ori _ => 0xF6
  | .rm => 0xF8
  | .sphl => 0xF9
  | .jm _ => 0xFA
  | .ei => 0xFB
  | .cm _ => 0xFC
  | .cpi _ => 0xFE
  | .undef op => op

/-- The operand bytes: none (F1), the immediate (F2), or its low byte and then its high byte (F3) (R61). -/
def operandBytes : Instr → List Byte
  | .nop => []
  | .lxi _ imm => [imm.extractLsb' 0 8, imm.extractLsb' 8 8]
  | .stax _ => []
  | .inx _ => []
  | .inr _ => []
  | .dcr _ => []
  | .mvi _ imm => [imm]
  | .rlc => []
  | .dad _ => []
  | .ldax _ => []
  | .dcx _ => []
  | .rrc => []
  | .ral => []
  | .rar => []
  | .shld imm => [imm.extractLsb' 0 8, imm.extractLsb' 8 8]
  | .daa => []
  | .lhld imm => [imm.extractLsb' 0 8, imm.extractLsb' 8 8]
  | .cma => []
  | .sta imm => [imm.extractLsb' 0 8, imm.extractLsb' 8 8]
  | .stc => []
  | .lda imm => [imm.extractLsb' 0 8, imm.extractLsb' 8 8]
  | .cmc => []
  | .mov _ _ => []
  | .hlt => []
  | .add _ => []
  | .adc _ => []
  | .sub _ => []
  | .sbb _ => []
  | .ana _ => []
  | .xra _ => []
  | .ora _ => []
  | .cmp _ => []
  | .rnz => []
  | .pop _ => []
  | .jnz imm => [imm.extractLsb' 0 8, imm.extractLsb' 8 8]
  | .jmp imm => [imm.extractLsb' 0 8, imm.extractLsb' 8 8]
  | .cnz imm => [imm.extractLsb' 0 8, imm.extractLsb' 8 8]
  | .push _ => []
  | .adi imm => [imm]
  | .rst _ => []
  | .rz => []
  | .ret => []
  | .jz imm => [imm.extractLsb' 0 8, imm.extractLsb' 8 8]
  | .cz imm => [imm.extractLsb' 0 8, imm.extractLsb' 8 8]
  | .call imm => [imm.extractLsb' 0 8, imm.extractLsb' 8 8]
  | .aci imm => [imm]
  | .rnc => []
  | .jnc imm => [imm.extractLsb' 0 8, imm.extractLsb' 8 8]
  | .outp imm => [imm]
  | .cnc imm => [imm.extractLsb' 0 8, imm.extractLsb' 8 8]
  | .sui imm => [imm]
  | .rc => []
  | .jc imm => [imm.extractLsb' 0 8, imm.extractLsb' 8 8]
  | .inp imm => [imm]
  | .cc imm => [imm.extractLsb' 0 8, imm.extractLsb' 8 8]
  | .sbi imm => [imm]
  | .rpo => []
  | .jpo imm => [imm.extractLsb' 0 8, imm.extractLsb' 8 8]
  | .xthl => []
  | .cpo imm => [imm.extractLsb' 0 8, imm.extractLsb' 8 8]
  | .ani imm => [imm]
  | .rpe => []
  | .pchl => []
  | .jpe imm => [imm.extractLsb' 0 8, imm.extractLsb' 8 8]
  | .xchg => []
  | .cpe imm => [imm.extractLsb' 0 8, imm.extractLsb' 8 8]
  | .xri imm => [imm]
  | .rp => []
  | .jp imm => [imm.extractLsb' 0 8, imm.extractLsb' 8 8]
  | .di => []
  | .cp imm => [imm.extractLsb' 0 8, imm.extractLsb' 8 8]
  | .ori imm => [imm]
  | .rm => []
  | .sphl => []
  | .jm imm => [imm.extractLsb' 0 8, imm.extractLsb' 8 8]
  | .ei => []
  | .cm imm => [imm.extractLsb' 0 8, imm.extractLsb' 8 8]
  | .cpi imm => [imm]
  | .undef _ => []

/-- The bytes of an instruction in ascending offset order (R42, R61). -/
def encode (i : Instr) : List Byte := opcodeOf i :: operandBytes i

/-! ## The numbering of spec/opcode_table.json -/

/-- Byte `k` of a word whose bits are numbered from the least significant bit of the first byte; bits from `nbits`
on are 0. -/
def tableByte (nbits w k : Nat) : Byte := BitVec.ofNat 8 ((w % 2 ^ nbits) / 2 ^ (8 * k))

/-- The bytes that word `w` of `nbits` bits stands for, up to the longest instruction (3 bytes), the first at the
lowest offset (R42). -/
def tableBytes (nbits w : Nat) : List Byte := [tableByte nbits w 0, tableByte nbits w 1, tableByte nbits w 2]

/-- What `decode` reads from the bytes of a table word. -/
def decodeTableWord (nbits w : Nat) : Option Instr :=
  match decode (tableBytes nbits w) with
  | .ok i => some i
  | .error _ => none

end Sys2Proof
end

