-- ==== Sys2Proof/Machine/Descriptor.lean ====
section
/-!
DEFINITION. The instruction descriptor (10_state.md rules R23 and R24) and one constructor function for each operand
class, which fills the fields that class has (40_decode_table.md rule R103).
-/

namespace Sys2Proof.Machine

/-- `OperandClass`, "a closed enumeration of exactly seven values" (R24). -/
inductive OperandClass
  | none
  | singleRegister
  | immediate8ToRegister
  | immediate16ToRegister
  | registerPair
  | immediate8Standalone
  | immediate16Standalone
  deriving DecidableEq, Repr

/-- The descriptor of one opcode (R23). -/
structure Descriptor where
  mnemonic : Text
  operandClass : OperandClass
  length : Nat
  register1 : Option Text
  register2 : Option Text
  deriving DecidableEq, Repr

/-- `classLength`: the length an operand class fixes (R102, R61). -/
def classLength : OperandClass → Nat
  | .none => 1
  | .singleRegister => 1
  | .registerPair => 1
  | .immediate8ToRegister => 2
  | .immediate8Standalone => 2
  | .immediate16ToRegister => 3
  | .immediate16Standalone => 3

/-- The classes whose entries name a first register (R103). -/
def classHasRegister1 : OperandClass → Bool
  | .none => false
  | .singleRegister => true
  | .registerPair => true
  | .immediate8ToRegister => true
  | .immediate8Standalone => false
  | .immediate16ToRegister => true
  | .immediate16Standalone => false

/-- The one class whose entries name a second register (R103). -/
def classHasRegister2 : OperandClass → Bool
  | .none => false
  | .singleRegister => false
  | .registerPair => true
  | .immediate8ToRegister => false
  | .immediate8Standalone => false
  | .immediate16ToRegister => false
  | .immediate16Standalone => false

/-- The length and register-field invariants of the ROM's entries (R102, R103). -/
def Descriptor.wellFormed (d : Descriptor) : Bool :=
  d.length == classLength d.operandClass &&
  d.register1.isSome == classHasRegister1 d.operandClass &&
  d.register2.isSome == classHasRegister2 d.operandClass

/-- An entry of class None. -/
def entryNone (mnemonic : String) : Descriptor :=
  { mnemonic := mnemonic.toList, operandClass := .none, length := 1, register1 := none, register2 := none }

/-- An entry of class SingleRegister. -/
def entryRegister (mnemonic : String) (r : Text) : Descriptor :=
  { mnemonic := mnemonic.toList, operandClass := .singleRegister, length := 1, register1 := some r, register2 := none }

/-- An entry of class RegisterPair. -/
def entryRegisterPair (mnemonic : String) (r1 r2 : Text) : Descriptor :=
  { mnemonic := mnemonic.toList, operandClass := .registerPair, length := 1, register1 := some r1,
    register2 := some r2 }

/-- An entry of class Immediate8ToRegister. -/
def entryImm8ToRegister (mnemonic : String) (r : Text) : Descriptor :=
  { mnemonic := mnemonic.toList, operandClass := .immediate8ToRegister, length := 2, register1 := some r,
    register2 := none }

/-- An entry of class Immediate16ToRegister. -/
def entryImm16ToRegister (mnemonic : String) (r : Text) : Descriptor :=
  { mnemonic := mnemonic.toList, operandClass := .immediate16ToRegister, length := 3, register1 := some r,
    register2 := none }

/-- An entry of class Immediate8Standalone. -/
def entryImm8 (mnemonic : String) : Descriptor :=
  { mnemonic := mnemonic.toList, operandClass := .immediate8Standalone, length := 2, register1 := none,
    register2 := none }

/-- An entry of class Immediate16Standalone. -/
def entryImm16 (mnemonic : String) : Descriptor :=
  { mnemonic := mnemonic.toList, operandClass := .immediate16Standalone, length := 3, register1 := none,
    register2 := none }

/-- `SENTINEL`, the entry of an opcode the instruction set does not define (R104). -/
def sentinel : Descriptor :=
  { mnemonic := "--".toList, operandClass := .none, length := 1, register1 := none, register2 := none }

end Sys2Proof.Machine
end

