-- ==== Sys2Proof/Config.lean ====
section
/-!
DEFINITION. The implementation parameters of 00_scope.md rule R7, each a constant of the model at the value
that rule gives. The one OPEN parameter, `ROM_WORD_ENCODING`, is an argument: see `Machine.RomWordEncoding`.
-/

namespace Sys2Proof.Config

/-- The letter case of a hexadecimal digit. -/
inductive HexCase
  | lower
  | upper
  deriving DecidableEq, Repr

/-- `ROM_DEPTH`: one entry for each opcode value 0 to 255. -/
def romDepth : Nat := 256

/-- `MAX_LEN`: no instruction is longer than 3 bytes. -/
def maxLen : Nat := 3

/-- `OFFSET_DIGITS`: hex digits of the printed offset. -/
def offsetDigits : Nat := 4

/-- `BYTE_DIGITS`: hex digits of a printed byte. -/
def byteDigits : Nat := 2

/-- `BYTE_SLOTS`: 3-character positions of the raw-byte column. -/
def byteSlots : Nat := 3

/-- The width of one slot: the byte's digits and a space ("3 slots of 3 characters each"). -/
def slotWidth : Nat := byteDigits + 1

/-- `MNEMONIC_WIDTH` (decision D21; log entry 9). -/
def mnemonicWidth : Nat := 4

/-- `OPERAND_SEP`: spaces between the padded mnemonic and the operand (decision D21; log entry 9). -/
def operandSep : Nat := 3

/-- `HEX_CASE_BYTES`: the source's own `c3`. -/
def hexCaseBytes : HexCase := .lower

/-- `HEX_CASE_OFFSET` (decision D2; log entry 8). -/
def hexCaseOffset : HexCase := .lower

/-- `HEX_CASE_OPERAND` (decision D3; log entry 8). -/
def hexCaseOperand : HexCase := .lower

/-- `PAD_WHEN_NO_OPERAND`: no spaces after a mnemonic that has no operand (conflict C1, decision D4; log entry 9). -/
def padWhenNoOperand : Bool := false

/-- `RST_OPERAND`: the restart number as one decimal digit (decision D5; log entry 10). -/
def rstOperand (n : Fin 8) : Text := ["01234567".toList.getD n.val '0']

/-- `BUF_MAX`: the largest admitted buffer length (decision D8; log entry 4). -/
def bufMax : Nat := 65536

/-- `CURSOR_BITS`: enough bits for every cursor 0 to 65536 (decision D8; log entry 16). -/
def cursorBits : Nat := 17

/-- `NEWLINE`: one LF after each line (decision D9; log entry 13). -/
def newline : Text := ['\n']

/-- What a cell that `Machine.Memory` does not list holds. A choice of representation only: a launch
gives every byte of the buffer its value (log entry 6). -/
def unlistedByte : Byte := 0

end Sys2Proof.Config
end

