-- ==== Sys2Proof/Machine/Text.lean ====
section
/-!
DEFINITION. The text functions of 00_scope.md rule R9.
-/

namespace Sys2Proof.Machine

/-- The sixteen hex digits of a letter case (R9; R7 `HEX_CASE_*`). -/
def hexDigits : Config.HexCase → Text
  | .lower => ['0', '1', '2', '3', '4', '5', '6', '7', '8', '9', 'a', 'b', 'c', 'd', 'e', 'f']
  | .upper => ['0', '1', '2', '3', '4', '5', '6', '7', '8', '9', 'A', 'B', 'C', 'D', 'E', 'F']

/-- `hexdigit(n)`: "the n-th character" (R9). -/
def hexDigit (c : Config.HexCase) (n : BitVec 4) : Char := (hexDigits c).getD n.toNat '0'

/-- `hex2(b)`: the digits of bits 7..4 and of bits 3..0 (R9). -/
def hex2 (c : Config.HexCase) (b : Byte) : Text :=
  [hexDigit c (b.extractLsb' 4 4), hexDigit c (b.extractLsb' 0 4)]

/-- `hex4(v)`: `hex2` of bits 15..8 and of bits 7..0 (R9). -/
def hex4 (c : Config.HexCase) (v : Word16) : Text :=
  hex2 c (v.extractLsb' 8 8) ++ hex2 c (v.extractLsb' 0 8)

/-- `spaces(n)` (R9). -/
def spaces (n : Nat) : Text := List.replicate n ' '

/-- `padRight(s, w)`: spaces up to width `w`, and `s` itself when it is at least that long (R9). -/
def padRight (s : Text) (w : Nat) : Text := s ++ spaces (w - s.length)

end Sys2Proof.Machine
end

