-- ==== Sys2Proof/Machine/Operands.lean ====
section
/-!
DEFINITION. Every operand form of the block: the register-name strings of the ROM (40_decode_table.md rule R108) and
the operand text of each class (41_formatter.md rules R128 to R135).
-/

namespace Sys2Proof

/-- The name of an 8-bit register (R108, decision D16; log entry 7). -/
def Reg8.name : Reg8 → Text
  | .b => "B".toList
  | .c => "C".toList
  | .d => "D".toList
  | .e => "E".toList
  | .h => "H".toList
  | .l => "L".toList
  | .m => "M".toList
  | .a => "A".toList

/-- The name of a register pair (R108). -/
def RegPair.name : RegPair → Text
  | .b => "B".toList
  | .d => "D".toList
  | .h => "H".toList
  | .sp => "SP".toList

/-- The name of a pair that PUSH or POP names (R108, R251, R255). -/
def StackPair.name : StackPair → Text
  | .b => "B".toList
  | .d => "D".toList
  | .h => "H".toList
  | .psw => "PSW".toList

/-- The name of a pair that STAX or LDAX names (R108, R202, R209). -/
def IndexPair.name : IndexPair → Text
  | .b => "B".toList
  | .d => "D".toList

namespace Machine

/-- `$XX` of a byte (R132). -/
def hexByteText (b : Byte) : Text := '$' :: hex2 Config.hexCaseOperand b

/-- `$YYXX` of a high and a low byte, high byte first (R131, R133). -/
def hexWordText (hi lo : Byte) : Text :=
  '$' :: (hex2 Config.hexCaseOperand hi ++ hex2 Config.hexCaseOperand lo)

/-- A descriptor's register name; the formatter asks for it only where the class has it (R103). -/
def registerText (r : Option Text) : Text := r.getD []

/-- `operandText(d, ob)` by operand class (R128 to R134); `lo` is `ob[1]` and `hi` is `ob[2]` (R135). -/
def operandText (d : Descriptor) (lo hi : Byte) : Text :=
  match d.operandClass with
  | .none => []
  | .singleRegister => registerText d.register1
  | .registerPair => registerText d.register1 ++ ',' :: registerText d.register2
  | .immediate8ToRegister => registerText d.register1 ++ ',' :: hexByteText lo
  | .immediate16ToRegister => registerText d.register1 ++ ',' :: hexWordText hi lo
  | .immediate8Standalone => hexByteText lo
  | .immediate16Standalone => hexWordText hi lo

end Machine

end Sys2Proof
end

