-- ==== Sys2Proof/Machine/State.lean ====
section
/-!
DEFINITION. The state of the block (10_state.md rules R20 to R32) and the reasons a step can stop.

R20 gives the block four things: the decoder ROM, the byte buffer, the cursor and the output stream. The ROM is a
constant of the configuration and no mutable field (R22, R32); it is `Machine.rom`, in Machine/Rom.lean (log entry 2).
The other three are the fields of `State`, in two parts: a pass takes the buffer as an argument and never as something to
change (R32), and what it changes is its progress. `Machine.step` gets both from the one state it sees (log entry 1).
-/

namespace Sys2Proof.Machine

/-- The bytes of the buffer space: cells with strictly rising offsets, none of them holding what an unlisted offset
reads as (`Memory.wf`, in Machine/Ops.lean). -/
abbrev Memory := List Host.Cell

/-- The launch memory, a parameter of a pass: the buffer's bytes and its length `N` (R25, R32). -/
structure Buffer where
  mem : Memory
  len : Nat
  deriving DecidableEq, Repr

/-- What the steps of a pass change: the cursor and the output stream (R26, R27, R301). -/
structure Progress where
  cur : Nat
  out : List Line
  deriving DecidableEq, Repr

/-- The state of the driver, the one agent (R150), with the buffer it was given. -/
structure State where
  /-- The bytes of the byte buffer (R25). -/
  mem : Memory
  /-- `N`, the buffer's length (R25). -/
  len : Nat
  /-- `cur`, the decode cursor: the offset of the next byte to decode (R26). -/
  cur : Nat
  /-- `out`, the output stream: the emitted lines, oldest first (R27). -/
  out : List Line
  deriving DecidableEq, Repr

/-- The block has no fault: "The model has no fault outcome: no admitted input makes the block fault, hang or stop
early" (R315; R300; decision D12). So no step can answer one. -/
inductive Fault
  deriving DecidableEq, Repr

/-- What the model gives no meaning to, by name. -/
inductive Refusal
  /-- An instruction that has no meaning yet. Raised by no arm of this model; safe. -/
  | notModelled (mnemonic : String)
  /-- `REFUSE_BUFFER_TOO_LONG` (R315, decision D8): a buffer longer than `BUF_MAX`. Raised by `launch`, and by the
  formatter when its offset and available bytes make up such a buffer; safe. -/
  | bufferTooLong
  /-- `REFUSE_NO_BYTE` (R315, R139): the formatter called with no byte available. Raised by the formatter, so by an
  instruction executed with the cursor at the buffer's end, which the driver never does; safe. -/
  | noByte
  /-- `REFUSE_BUFFER_WRITE` (R315, R325): a write to the byte buffer during a pass. Raised by `writeBuffer`, which no
  step calls; safe. -/
  | bufferWrite
  /-- No step is enabled, because the cursor is not below the buffer's length: the pass has ended (R152, R154; log
  entry 3). Raised by `step`; safe. -/
  | stepNotEnabled
  /-- A term of `Instr` that is no row of the opcode map: MOV with `M` on both sides, or `--` for a defined opcode
  (log entry 14). Raised by those two meanings and by no decoded instruction; safe. -/
  | noRomEntry
  deriving DecidableEq, Repr

/-- The three outcomes of a step of this machine. -/
abbrev Outcome := Host.Outcome State Fault Refusal

/-- The block before any image is loaded: an empty buffer, the cursor at 0, no line written (R31, R320, R321,
decision D11; the buffer's own contents are the launch's, log entry 5). -/
def State.reset : State := { mem := [], len := 0, cur := 0, out := [] }

end Sys2Proof.Machine
end

