-- ==== Sys2Proof/Machine/Formatter.lean ====
section
/-!
DEFINITION. The descriptor formatter (41_formatter.md), a function with no state.
-/

namespace Sys2Proof.Machine

/-- The three outputs of the formatter (R120). -/
structure Formatted where
  line : Line
  totalLength : Nat
  advance : Nat
  deriving DecidableEq, Repr

/-- `ob[i]`: byte `i` of the instruction, or 00 where fewer than `i + 1` bytes are available (R121). -/
def availableByte (avail : Nat) (b : List Byte) (i : Nat) : Byte :=
  if i < avail then b.getD i 0 else 0

/-- Field 1: the offset and a space (R122). -/
def offsetField (offset : Nat) : Text :=
  hex4 Config.hexCaseOffset (BitVec.ofNat 16 offset) ++ [' ']

/-- One slot of the raw-byte column: a byte and a space (R123). -/
def byteSlot (b : Byte) : Text := hex2 Config.hexCaseBytes b ++ [' ']

/-- Field 2: exactly `length` bytes in ascending order, missing ones as 00 (R123, decision D6; log entry 11). -/
def rawByteField (length avail : Nat) (b : List Byte) : Text :=
  (List.range length).flatMap fun i => byteSlot (availableByte avail b i)

/-- Field 3: three spaces for each byte slot left over (R124). -/
def paddingField (length : Nat) : Text := spaces (Config.slotWidth * (Config.byteSlots - length))

/-- Fields 4 and 5: the mnemonic, and for every class but None its padding, the separator and the operand (R126). -/
def tailField (d : Descriptor) (lo hi : Byte) : Text :=
  if d.operandClass = .none then
    if Config.padWhenNoOperand then padRight d.mnemonic Config.mnemonicWidth else d.mnemonic
  else
    padRight d.mnemonic Config.mnemonicWidth ++ spaces Config.operandSep ++ operandText d lo hi

/-- The line, its fields in the order of R127. -/
def formatLine (d : Descriptor) (offset avail : Nat) (b : List Byte) : Line :=
  offsetField offset ++ rawByteField d.length avail b ++ paddingField d.length ++
    tailField d (availableByte avail b 1) (availableByte avail b 2)

/-- The formatter (R120): the line, `totalLength = d.length` (R136) and `advance = min(d.length, avail)` (R137,
decision D7; log entry 12). It refuses a call with no byte (R139) and one for a buffer longer than `BUF_MAX`, whose
offsets four digits cannot show (R315, decision D8). -/
def format (d : Descriptor) (offset avail : Nat) (b : List Byte) : Except Refusal Formatted :=
  if avail = 0 then .error .noByte
  else if Config.bufMax < offset + avail then .error .bufferTooLong
  else .ok
    { line := formatLine d offset avail b
      totalLength := d.length
      advance := min d.length avail }

end Sys2Proof.Machine
end

