-- ==== Sys2Proof/Machine/Ops.lean ====
section
/-!
DEFINITION. The named operations over the state: the byte buffer (20_memory.md), the cursor, the output stream, the
launch of a pass, and the one operation every instruction's meaning is a case of.

TAKING AN EXCEPTION, AND RETURNING FROM ONE: the block has neither. "The block raises no exception" (60_exceptions.md
rule R300), "Trap entry: none" (R306), "Trap return and nesting: none" (R307), "Interrupts: none" (R304); an undefined
opcode and a truncated instruction are ordinary steps (R301, R302).
-/

namespace Sys2Proof.Machine

/-! ## The byte buffer -/

/-- The byte at an offset of the buffer space. -/
def Memory.read : Memory → Nat → Byte
  | [], _ => Config.unlistedByte
  | (k, v) :: rest, a => if k = a then v else Memory.read rest a

/-- A cell for offset `a` in front of cells at higher offsets; none where `v` is what an unlisted offset reads as. -/
def Memory.consCell (a : Nat) (v : Byte) (rest : Memory) : Memory :=
  if v = Config.unlistedByte then rest else (a, v) :: rest

/-- The memory with byte `v` at offset `a`, in canonical form again. The loader's operation: no instruction writes the
buffer (R25, R49). -/
def Memory.write : Memory → Nat → Byte → Memory
  | [], a, v => Memory.consCell a v []
  | (k, w) :: rest, a, v =>
    if a < k then Memory.consCell a v ((k, w) :: rest)
    else if a = k then Memory.consCell a v rest
    else (k, w) :: Memory.write rest a v

/-- Consecutive bytes written from an offset on. -/
def Memory.writeBytes : Memory → Nat → List Byte → Memory
  | m, _, [] => m
  | m, a, v :: vs => Memory.writeBytes (Memory.write m a v) (a + 1) vs

/-- Every listed offset is above `a`, and the offsets rise strictly from there; no cell holds the unlisted byte. -/
def Memory.wfFrom : Memory → Nat → Bool
  | [], _ => true
  | (k, v) :: rest, a => decide (a ≤ k) && decide (v ≠ Config.unlistedByte) && Memory.wfFrom rest (k + 1)

/-- The canonical form: offsets strictly rising, no cell equal to what an unlisted offset reads as. -/
def Memory.wf (m : Memory) : Bool := Memory.wfFrom m 0

/-- Every listed offset is below `n`. -/
def Memory.below (m : Memory) (n : Nat) : Bool := m.all fun cell => decide (cell.1 < n)

/-- `MemRead(a, 1)`, "defined for `0 <= a < N` only" (R41). -/
def Buffer.readByte (buffer : Buffer) (a : Nat) : Option Byte :=
  if a < buffer.len then some (buffer.mem.read a) else none

/-- `avail = N - cur`, the bytes left from the cursor (R12, R153). -/
def Buffer.avail (buffer : Buffer) (cur : Nat) : Nat := buffer.len - cur

/-- The buffer of an image: its bytes from offset 0 on, and their number (R25, R45). -/
def Buffer.ofImage (image : List Byte) : Buffer :=
  { mem := Memory.writeBytes [] 0 image, len := image.length }

/-- A buffer that holds the given bytes from `base` on, as long as they need within `BUF_MAX`, and the same bytes as
before elsewhere: the parameter of another pass (log entry 5). -/
def Buffer.place (base : Nat) (bytes : List Byte) (buffer : Buffer) : Buffer :=
  { mem := buffer.mem.writeBytes base bytes
    len := min Config.bufMax (max buffer.len (base + bytes.length)) }

/-! ## The two parts of the state: the parameter and the progress of a pass (R32) -/

/-- The buffer the pass was given. -/
def State.buffer (s : State) : Buffer := { mem := s.mem, len := s.len }

/-- How far the pass has come. -/
def State.progress (s : State) : Progress := { cur := s.cur, out := s.out }

/-- The state of a pass over a buffer. -/
def State.ofPass (buffer : Buffer) (p : Progress) : State :=
  { mem := buffer.mem, len := buffer.len, cur := p.cur, out := p.out }

/-- A pass goes on over its own buffer, whatever the progress; the one way a step makes its next state. -/
def State.resume (s : State) (answer : Except Refusal Progress) : Outcome :=
  match answer with
  | .ok p => .next (State.ofPass s.buffer p)
  | .error r => .refused r

/-- The byte at an offset of the state's buffer. -/
def State.readByte (s : State) (a : Nat) : Option Byte := s.buffer.readByte a

/-! ## The cursor and the output stream -/

/-- The start of a pass: "`cur = 0`, `out` empty" (R31, R320; decision D11, log entry 18). -/
def Progress.start : Progress := { cur := 0, out := [] }

/-- `emit(line)`: appends one line to the output stream, the only operation on it (R27). -/
def Progress.emit (p : Progress) (line : Line) : Progress := { p with out := p.out ++ [line] }

/-- `cur <- cur + n` (R153). -/
def Progress.advanceBy (p : Progress) (n : Nat) : Progress := { p with cur := p.cur + n }

/-- The text of an output stream: each line followed by the newline, nothing else (R27, R157, decision D9). -/
def streamText (out : List Line) : Text := out.flatMap fun line => line ++ Config.newline

/-- The bytes of an output stream, ASCII (R7 `CHARSET`, R27, decision D9; log entry 13). -/
def streamBytes (out : List Line) : List Byte := (streamText out).map fun c => BitVec.ofNat 8 c.toNat

/-! ## A step's effect -/

/-- The effect of one instruction, given its descriptor and its bytes, on a pass over the buffer it takes as an argument
(R32): format them at the cursor, emit the line, advance the cursor (R153). -/
def renderEntry (d : Descriptor) (bytes : List Byte) (buffer : Buffer) (p : Progress) : Except Refusal Progress :=
  match format d p.cur (buffer.avail p.cur) bytes with
  | .ok f => .ok ((p.emit f.line).advanceBy f.advance)
  | .error r => .error r

/-- What executing an instruction does. Nothing but the progress changes, whatever the mnemonic means on an 8080 (R3,
R156, R309). -/
def runEntry (d : Descriptor) (bytes : List Byte) (s : State) : Outcome :=
  s.resume (renderEntry d bytes s.buffer s.progress)

/-! ## The host boundary -/

/-- The start of a pass over an image (R31, R151, R320, R323); an image longer than `BUF_MAX` is refused (R25, R315). -/
def launch (image : List Byte) : Outcome :=
  if Config.bufMax < image.length then .refused .bufferTooLong
  else .next (State.ofPass (Buffer.ofImage image) Progress.start)

/-- A second pass over the buffer of a finished one starts from the values of a launch again (R320, R322). -/
def State.restart (s : State) : State := State.ofPass s.buffer Progress.start

/-- A write to the byte buffer during a pass, by whoever asks for it, is refused (R315 `REFUSE_BUFFER_WRITE`, R325). -/
def writeBuffer (_offset : Nat) (_value : Byte) (_s : State) : Outcome := .refused .bufferWrite

/-- Where bytes for the very next step can be placed: at the cursor, or at the start of the buffer when fewer than
`MAX_LEN` offsets are left below `BUF_MAX` (log entry 5). -/
def fetchSite (s : State) : Nat := if s.cur + Config.maxLen ≤ Config.bufMax then s.cur else 0

/-- A host's load between passes (R323): the state of a pass over another buffer, one that holds the bytes at `base`, with
the cursor on the first of them. It is no step, and no step calls it: within a pass the buffer is not written (R325,
`writeBuffer`). The lines are kept, because a placement changes nothing that the next step does not need (log entry 5). -/
def placeBytes (base : Nat) (bytes : List Byte) (s : State) : State :=
  State.ofPass (s.buffer.place base bytes) { s.progress with cur := base }

end Sys2Proof.Machine
end

