-- ==== Sys2Proof/Machine/Ops00To3F.lean ====
section
/-!
DEFINITION. The meanings of opcodes 0x00 to 0x3F (43_ops_00_3f.md, rules R200 to R221).
Each names the instruction's ROM entry and leaves the rest to `runEntry`.
No flag is written and no exception raised by any of them; none computes an 8080 result (R3).
-/

namespace Sys2Proof.Machine

/-- R200: NOP, class None, so the line ends with the mnemonic. -/
def execNop (s : State) : Outcome :=
  runEntry (entryNone "NOP") (encode .nop) s

/-- R201: LXI, class Immediate16ToRegister. -/
def execLxi (pair : RegPair) (imm : Word16) (s : State) : Outcome :=
  runEntry (entryImm16ToRegister "LXI" pair.name) (encode (.lxi pair imm)) s

/-- R202: STAX, class SingleRegister. -/
def execStax (r : IndexPair) (s : State) : Outcome :=
  runEntry (entryRegister "STAX" r.name) (encode (.stax r)) s

/-- R203: INX, class SingleRegister. -/
def execInx (r : RegPair) (s : State) : Outcome :=
  runEntry (entryRegister "INX" r.name) (encode (.inx r)) s

/-- R204: INR, class SingleRegister. -/
def execInr (r : Reg8) (s : State) : Outcome :=
  runEntry (entryRegister "INR" r.name) (encode (.inr r)) s

/-- R205: DCR, class SingleRegister. -/
def execDcr (r : Reg8) (s : State) : Outcome :=
  runEntry (entryRegister "DCR" r.name) (encode (.dcr r)) s

/-- R206: MVI, class Immediate8ToRegister. -/
def execMvi (r : Reg8) (imm : Byte) (s : State) : Outcome :=
  runEntry (entryImm8ToRegister "MVI" r.name) (encode (.mvi r imm)) s

/-- R207: RLC, class None, so the line ends with the mnemonic. -/
def execRlc (s : State) : Outcome :=
  runEntry (entryNone "RLC") (encode .rlc) s

/-- R208: DAD, class SingleRegister. -/
def execDad (r : RegPair) (s : State) : Outcome :=
  runEntry (entryRegister "DAD" r.name) (encode (.dad r)) s

/-- R209: LDAX, class SingleRegister. -/
def execLdax (r : IndexPair) (s : State) : Outcome :=
  runEntry (entryRegister "LDAX" r.name) (encode (.ldax r)) s

/-- R210: DCX, class SingleRegister. -/
def execDcx (r : RegPair) (s : State) : Outcome :=
  runEntry (entryRegister "DCX" r.name) (encode (.dcx r)) s

/-- R211: RRC, class None, so the line ends with the mnemonic. -/
def execRrc (s : State) : Outcome :=
  runEntry (entryNone "RRC") (encode .rrc) s

/-- R212: RAL, class None, so the line ends with the mnemonic. -/
def execRal (s : State) : Outcome :=
  runEntry (entryNone "RAL") (encode .ral) s

/-- R213: RAR, class None, so the line ends with the mnemonic. -/
def execRar (s : State) : Outcome :=
  runEntry (entryNone "RAR") (encode .rar) s

/-- R214: SHLD, class Immediate16Standalone. -/
def execShld (imm : Word16) (s : State) : Outcome :=
  runEntry (entryImm16 "SHLD") (encode (.shld imm)) s

/-- R215: DAA, class None, so the line ends with the mnemonic. -/
def execDaa (s : State) : Outcome :=
  runEntry (entryNone "DAA") (encode .daa) s

/-- R216: LHLD, class Immediate16Standalone. -/
def execLhld (imm : Word16) (s : State) : Outcome :=
  runEntry (entryImm16 "LHLD") (encode (.lhld imm)) s

/-- R217: CMA, class None, so the line ends with the mnemonic. -/
def execCma (s : State) : Outcome :=
  runEntry (entryNone "CMA") (encode .cma) s

/-- R218: STA, class Immediate16Standalone. -/
def execSta (imm : Word16) (s : State) : Outcome :=
  runEntry (entryImm16 "STA") (encode (.sta imm)) s

/-- R219: STC, class None, so the line ends with the mnemonic. -/
def execStc (s : State) : Outcome :=
  runEntry (entryNone "STC") (encode .stc) s

/-- R220: LDA, class Immediate16Standalone. -/
def execLda (imm : Word16) (s : State) : Outcome :=
  runEntry (entryImm16 "LDA") (encode (.lda imm)) s

/-- R221: CMC, class None, so the line ends with the mnemonic. -/
def execCmc (s : State) : Outcome :=
  runEntry (entryNone "CMC") (encode .cmc) s

end Sys2Proof.Machine
end

