-- ==== Sys2Proof/Machine/Ops40To7F.lean ====
section
/-!
DEFINITION. The meanings of opcodes 0x40 to 0x7F (44_ops_40_7f.md, rules R230 and R231).
Each names the instruction's ROM entry and leaves the rest to `runEntry`.
No flag is written and no exception raised by any of them; none computes an 8080 result (R3).
-/

namespace Sys2Proof.Machine

/-- R230: MOV, class RegisterPair, destination first. `M,M` is no form of it: 0x76 is HLT (R231). -/
def execMov (dst src : Reg8) (s : State) : Outcome :=
  if movFormExists dst src then runEntry (entryRegisterPair "MOV" dst.name src.name) (encode (.mov dst src)) s
  else .refused .noRomEntry

/-- R231: HLT, class None, so the line ends with the mnemonic. It does not halt the pass (R309). -/
def execHlt (s : State) : Outcome :=
  runEntry (entryNone "HLT") (encode .hlt) s

end Sys2Proof.Machine
end

