-- ==== Sys2Proof/Machine/Ops80ToBF.lean ====
section
/-!
DEFINITION. The meanings of opcodes 0x80 to 0xBF (45_ops_80_bf.md, rules R240 to R247).
Each names the instruction's ROM entry and leaves the rest to `runEntry`.
No flag is written and no exception raised by any of them; none computes an 8080 result (R3).
-/

namespace Sys2Proof.Machine

/-- R240: ADD, class SingleRegister. -/
def execAdd (r : Reg8) (s : State) : Outcome :=
  runEntry (entryRegister "ADD" r.name) (encode (.add r)) s

/-- R241: ADC, class SingleRegister. -/
def execAdc (r : Reg8) (s : State) : Outcome :=
  runEntry (entryRegister "ADC" r.name) (encode (.adc r)) s

/-- R242: SUB, class SingleRegister. -/
def execSub (r : Reg8) (s : State) : Outcome :=
  runEntry (entryRegister "SUB" r.name) (encode (.sub r)) s

/-- R243: SBB, class SingleRegister. -/
def execSbb (r : Reg8) (s : State) : Outcome :=
  runEntry (entryRegister "SBB" r.name) (encode (.sbb r)) s

/-- R244: ANA, class SingleRegister. -/
def execAna (r : Reg8) (s : State) : Outcome :=
  runEntry (entryRegister "ANA" r.name) (encode (.ana r)) s

/-- R245: XRA, class SingleRegister. -/
def execXra (r : Reg8) (s : State) : Outcome :=
  runEntry (entryRegister "XRA" r.name) (encode (.xra r)) s

/-- R246: ORA, class SingleRegister. -/
def execOra (r : Reg8) (s : State) : Outcome :=
  runEntry (entryRegister "ORA" r.name) (encode (.ora r)) s

/-- R247: CMP, class SingleRegister. -/
def execCmp (r : Reg8) (s : State) : Outcome :=
  runEntry (entryRegister "CMP" r.name) (encode (.cmp r)) s

end Sys2Proof.Machine
end

