-- ==== Sys2Proof/Machine/OpsC0ToFF.lean ====
section
/-!
DEFINITION. The meanings of opcodes 0xC0 to 0xFF (46_ops_c0_ff.md, rules R250 to R295).
Each names the instruction's ROM entry and leaves the rest to `runEntry`.
No flag is written and no exception raised by any of them; none computes an 8080 result (R3).
-/

namespace Sys2Proof.Machine

/-- R250: RNZ, class None, so the line ends with the mnemonic. No control flow is followed (R156). -/
def execRnz (s : State) : Outcome :=
  runEntry (entryNone "RNZ") (encode .rnz) s

/-- R251: POP, class SingleRegister. -/
def execPop (r : StackPair) (s : State) : Outcome :=
  runEntry (entryRegister "POP" r.name) (encode (.pop r)) s

/-- R252: JNZ, class Immediate16Standalone. The address is shown, never followed (R156). -/
def execJnz (imm : Word16) (s : State) : Outcome :=
  runEntry (entryImm16 "JNZ") (encode (.jnz imm)) s

/-- R253: JMP, class Immediate16Standalone. The address is shown, never followed (R156). -/
def execJmp (imm : Word16) (s : State) : Outcome :=
  runEntry (entryImm16 "JMP") (encode (.jmp imm)) s

/-- R254: CNZ, class Immediate16Standalone. The address is shown, never followed (R156). -/
def execCnz (imm : Word16) (s : State) : Outcome :=
  runEntry (entryImm16 "CNZ") (encode (.cnz imm)) s

/-- R255: PUSH, class SingleRegister. -/
def execPush (r : StackPair) (s : State) : Outcome :=
  runEntry (entryRegister "PUSH" r.name) (encode (.push r)) s

/-- R256: ADI, class Immediate8Standalone. -/
def execAdi (imm : Byte) (s : State) : Outcome :=
  runEntry (entryImm8 "ADI") (encode (.adi imm)) s

/-- R257: RST, class SingleRegister; the operand is the digit n (decision D5; log entry 10).
No control flow is followed (R156). -/
def execRst (n : Fin 8) (s : State) : Outcome :=
  runEntry (entryRegister "RST" (Config.rstOperand n)) (encode (.rst n)) s

/-- R258: RZ, class None, so the line ends with the mnemonic. No control flow is followed (R156). -/
def execRz (s : State) : Outcome :=
  runEntry (entryNone "RZ") (encode .rz) s

/-- R259: RET, class None, so the line ends with the mnemonic. No control flow is followed (R156). -/
def execRet (s : State) : Outcome :=
  runEntry (entryNone "RET") (encode .ret) s

/-- R260: JZ, class Immediate16Standalone. The address is shown, never followed (R156). -/
def execJz (imm : Word16) (s : State) : Outcome :=
  runEntry (entryImm16 "JZ") (encode (.jz imm)) s

/-- R261: CZ, class Immediate16Standalone. The address is shown, never followed (R156). -/
def execCz (imm : Word16) (s : State) : Outcome :=
  runEntry (entryImm16 "CZ") (encode (.cz imm)) s

/-- R262: CALL, class Immediate16Standalone. The address is shown, never followed (R156). -/
def execCall (imm : Word16) (s : State) : Outcome :=
  runEntry (entryImm16 "CALL") (encode (.call imm)) s

/-- R263: ACI, class Immediate8Standalone. -/
def execAci (imm : Byte) (s : State) : Outcome :=
  runEntry (entryImm8 "ACI") (encode (.aci imm)) s

/-- R264: RNC, class None, so the line ends with the mnemonic. No control flow is followed (R156). -/
def execRnc (s : State) : Outcome :=
  runEntry (entryNone "RNC") (encode .rnc) s

/-- R265: JNC, class Immediate16Standalone. The address is shown, never followed (R156). -/
def execJnc (imm : Word16) (s : State) : Outcome :=
  runEntry (entryImm16 "JNC") (encode (.jnc imm)) s

/-- R266: OUT, class Immediate8Standalone. No port is written (R40, R309). -/
def execOutp (imm : Byte) (s : State) : Outcome :=
  runEntry (entryImm8 "OUT") (encode (.outp imm)) s

/-- R267: CNC, class Immediate16Standalone. The address is shown, never followed (R156). -/
def execCnc (imm : Word16) (s : State) : Outcome :=
  runEntry (entryImm16 "CNC") (encode (.cnc imm)) s

/-- R268: SUI, class Immediate8Standalone. -/
def execSui (imm : Byte) (s : State) : Outcome :=
  runEntry (entryImm8 "SUI") (encode (.sui imm)) s

/-- R269: RC, class None, so the line ends with the mnemonic. No control flow is followed (R156). -/
def execRc (s : State) : Outcome :=
  runEntry (entryNone "RC") (encode .rc) s

/-- R270: JC, class Immediate16Standalone. The address is shown, never followed (R156). -/
def execJc (imm : Word16) (s : State) : Outcome :=
  runEntry (entryImm16 "JC") (encode (.jc imm)) s

/-- R271: IN, class Immediate8Standalone. No port is read (R40, R309). -/
def execInp (imm : Byte) (s : State) : Outcome :=
  runEntry (entryImm8 "IN") (encode (.inp imm)) s

/-- R272: CC, class Immediate16Standalone. The address is shown, never followed (R156). -/
def execCc (imm : Word16) (s : State) : Outcome :=
  runEntry (entryImm16 "CC") (encode (.cc imm)) s

/-- R273: SBI, class Immediate8Standalone. -/
def execSbi (imm : Byte) (s : State) : Outcome :=
  runEntry (entryImm8 "SBI") (encode (.sbi imm)) s

/-- R274: RPO, class None, so the line ends with the mnemonic. No control flow is followed (R156). -/
def execRpo (s : State) : Outcome :=
  runEntry (entryNone "RPO") (encode .rpo) s

/-- R275: JPO, class Immediate16Standalone. The address is shown, never followed (R156). -/
def execJpo (imm : Word16) (s : State) : Outcome :=
  runEntry (entryImm16 "JPO") (encode (.jpo imm)) s

/-- R276: XTHL, class None, so the line ends with the mnemonic. -/
def execXthl (s : State) : Outcome :=
  runEntry (entryNone "XTHL") (encode .xthl) s

/-- R277: CPO, class Immediate16Standalone. The address is shown, never followed (R156). -/
def execCpo (imm : Word16) (s : State) : Outcome :=
  runEntry (entryImm16 "CPO") (encode (.cpo imm)) s

/-- R278: ANI, class Immediate8Standalone. -/
def execAni (imm : Byte) (s : State) : Outcome :=
  runEntry (entryImm8 "ANI") (encode (.ani imm)) s

/-- R279: RPE, class None, so the line ends with the mnemonic. No control flow is followed (R156). -/
def execRpe (s : State) : Outcome :=
  runEntry (entryNone "RPE") (encode .rpe) s

/-- R280: PCHL, class None, so the line ends with the mnemonic. No control flow is followed (R156). -/
def execPchl (s : State) : Outcome :=
  runEntry (entryNone "PCHL") (encode .pchl) s

/-- R281: JPE, class Immediate16Standalone. The address is shown, never followed (R156). -/
def execJpe (imm : Word16) (s : State) : Outcome :=
  runEntry (entryImm16 "JPE") (encode (.jpe imm)) s

/-- R282: XCHG, class None, so the line ends with the mnemonic. -/
def execXchg (s : State) : Outcome :=
  runEntry (entryNone "XCHG") (encode .xchg) s

/-- R283: CPE, class Immediate16Standalone. The address is shown, never followed (R156). -/
def execCpe (imm : Word16) (s : State) : Outcome :=
  runEntry (entryImm16 "CPE") (encode (.cpe imm)) s

/-- R284: XRI, class Immediate8Standalone. -/
def execXri (imm : Byte) (s : State) : Outcome :=
  runEntry (entryImm8 "XRI") (encode (.xri imm)) s

/-- R285: RP, class None, so the line ends with the mnemonic. No control flow is followed (R156). -/
def execRp (s : State) : Outcome :=
  runEntry (entryNone "RP") (encode .rp) s

/-- R286: JP, class Immediate16Standalone. The address is shown, never followed (R156). -/
def execJp (imm : Word16) (s : State) : Outcome :=
  runEntry (entryImm16 "JP") (encode (.jp imm)) s

/-- R287: DI, class None, so the line ends with the mnemonic. No interrupt state exists to change (R304, R309). -/
def execDi (s : State) : Outcome :=
  runEntry (entryNone "DI") (encode .di) s

/-- R288: CP, class Immediate16Standalone. The address is shown, never followed (R156). -/
def execCp (imm : Word16) (s : State) : Outcome :=
  runEntry (entryImm16 "CP") (encode (.cp imm)) s

/-- R289: ORI, class Immediate8Standalone. -/
def execOri (imm : Byte) (s : State) : Outcome :=
  runEntry (entryImm8 "ORI") (encode (.ori imm)) s

/-- R290: RM, class None, so the line ends with the mnemonic. No control flow is followed (R156). -/
def execRm (s : State) : Outcome :=
  runEntry (entryNone "RM") (encode .rm) s

/-- R291: SPHL, class None, so the line ends with the mnemonic. -/
def execSphl (s : State) : Outcome :=
  runEntry (entryNone "SPHL") (encode .sphl) s

/-- R292: JM, class Immediate16Standalone. The address is shown, never followed (R156). -/
def execJm (imm : Word16) (s : State) : Outcome :=
  runEntry (entryImm16 "JM") (encode (.jm imm)) s

/-- R293: EI, class None, so the line ends with the mnemonic. No interrupt state exists to change (R304, R309). -/
def execEi (s : State) : Outcome :=
  runEntry (entryNone "EI") (encode .ei) s

/-- R294: CM, class Immediate16Standalone. The address is shown, never followed (R156). -/
def execCm (imm : Word16) (s : State) : Outcome :=
  runEntry (entryImm16 "CM") (encode (.cm imm)) s

/-- R295: CPI, class Immediate8Standalone. -/
def execCpi (imm : Byte) (s : State) : Outcome :=
  runEntry (entryImm8 "CPI") (encode (.cpi imm)) s

end Sys2Proof.Machine
end

