-- ==== Sys2Proof/Machine/OpsUndefined.lean ====
section
/-!
DEFINITION. The meanings of the undefined opcodes (40_decode_table.md rules R104 and R105).
Each names the instruction's ROM entry and leaves the rest to `runEntry`.
No flag is written and no exception raised by any of them; none computes an 8080 result (R3).
-/

namespace Sys2Proof.Machine

/-- R104, R301: an undefined opcode is "not an error"; its entry is the sentinel and the pass goes on at the next byte
(R160). The twelve opcodes are those of R105 (decision D15; log entry 7). -/
def execUndef (op : Byte) (s : State) : Outcome :=
  if isUndefinedOpcode op then runEntry sentinel (encode (.undef op)) s
  else .refused .noRomEntry

end Sys2Proof.Machine
end

