-- ==== Sys2Proof/Machine/Dispatch.lean ====
section
/-!
DEFINITION. The dispatch: one arm for each constructor of `Instr`, each a call of that instruction's meaning.
-/

namespace Sys2Proof.Machine

def exec (i : Instr) (s : State) : Host.Outcome State Fault Refusal :=
  match i with
  -- opcodes 0x00 to 0x3F (43_ops_00_3f.md, rules R200 to R221)
  | .nop => Sys2Proof.Machine.execNop s
  | .lxi pair imm => Sys2Proof.Machine.execLxi pair imm s
  | .stax r => Sys2Proof.Machine.execStax r s
  | .inx r => Sys2Proof.Machine.execInx r s
  | .inr r => Sys2Proof.Machine.execInr r s
  | .dcr r => Sys2Proof.Machine.execDcr r s
  | .mvi r imm => Sys2Proof.Machine.execMvi r imm s
  | .rlc => Sys2Proof.Machine.execRlc s
  | .dad r => Sys2Proof.Machine.execDad r s
  | .ldax r => Sys2Proof.Machine.execLdax r s
  | .dcx r => Sys2Proof.Machine.execDcx r s
  | .rrc => Sys2Proof.Machine.execRrc s
  | .ral => Sys2Proof.Machine.execRal s
  | .rar => Sys2Proof.Machine.execRar s
  | .shld imm => Sys2Proof.Machine.execShld imm s
  | .daa => Sys2Proof.Machine.execDaa s
  | .lhld imm => Sys2Proof.Machine.execLhld imm s
  | .cma => Sys2Proof.Machine.execCma s
  | .sta imm => Sys2Proof.Machine.execSta imm s
  | .stc => Sys2Proof.Machine.execStc s
  | .lda imm => Sys2Proof.Machine.execLda imm s
  | .cmc => Sys2Proof.Machine.execCmc s
  -- opcodes 0x40 to 0x7F (44_ops_40_7f.md, rules R230 and R231)
  | .mov dst src => Sys2Proof.Machine.execMov dst src s
  | .hlt => Sys2Proof.Machine.execHlt s
  -- opcodes 0x80 to 0xBF (45_ops_80_bf.md, rules R240 to R247)
  | .add r => Sys2Proof.Machine.execAdd r s
  | .adc r => Sys2Proof.Machine.execAdc r s
  | .sub r => Sys2Proof.Machine.execSub r s
  | .sbb r => Sys2Proof.Machine.execSbb r s
  | .ana r => Sys2Proof.Machine.execAna r s
  | .xra r => Sys2Proof.Machine.execXra r s
  | .ora r => Sys2Proof.Machine.execOra r s
  | .cmp r => Sys2Proof.Machine.execCmp r s
  -- opcodes 0xC0 to 0xFF (46_ops_c0_ff.md, rules R250 to R295)
  | .rnz => Sys2Proof.Machine.execRnz s
  | .pop r => Sys2Proof.Machine.execPop r s
  | .jnz imm => Sys2Proof.Machine.execJnz imm s
  | .jmp imm => Sys2Proof.Machine.execJmp imm s
  | .cnz imm => Sys2Proof.Machine.execCnz imm s
  | .push r => Sys2Proof.Machine.execPush r s
  | .adi imm => Sys2Proof.Machine.execAdi imm s
  | .rst n => Sys2Proof.Machine.execRst n s
  | .rz => Sys2Proof.Machine.execRz s
  | .ret => Sys2Proof.Machine.execRet s
  | .jz imm => Sys2Proof.Machine.execJz imm s
  | .cz imm => Sys2Proof.Machine.execCz imm s
  | .call imm => Sys2Proof.Machine.execCall imm s
  | .aci imm => Sys2Proof.Machine.execAci imm s
  | .rnc => Sys2Proof.Machine.execRnc s
  | .jnc imm => Sys2Proof.Machine.execJnc imm s
  | .outp imm => Sys2Proof.Machine.execOutp imm s
  | .cnc imm => Sys2Proof.Machine.execCnc imm s
  | .sui imm => Sys2Proof.Machine.execSui imm s
  | .rc => Sys2Proof.Machine.execRc s
  | .jc imm => Sys2Proof.Machine.execJc imm s
  | .inp imm => Sys2Proof.Machine.execInp imm s
  | .cc imm => Sys2Proof.Machine.execCc imm s
  | .sbi imm => Sys2Proof.Machine.execSbi imm s
  | .rpo => Sys2Proof.Machine.execRpo s
  | .jpo imm => Sys2Proof.Machine.execJpo imm s
  | .xthl => Sys2Proof.Machine.execXthl s
  | .cpo imm => Sys2Proof.Machine.execCpo imm s
  | .ani imm => Sys2Proof.Machine.execAni imm s
  | .rpe => Sys2Proof.Machine.execRpe s
  | .pchl => Sys2Proof.Machine.execPchl s
  | .jpe imm => Sys2Proof.Machine.execJpe imm s
  | .xchg => Sys2Proof.Machine.execXchg s
  | .cpe imm => Sys2Proof.Machine.execCpe imm s
  | .xri imm => Sys2Proof.Machine.execXri imm s
  | .rp => Sys2Proof.Machine.execRp s
  | .jp imm => Sys2Proof.Machine.execJp imm s
  | .di => Sys2Proof.Machine.execDi s
  | .cp imm => Sys2Proof.Machine.execCp imm s
  | .ori imm => Sys2Proof.Machine.execOri imm s
  | .rm => Sys2Proof.Machine.execRm s
  | .sphl => Sys2Proof.Machine.execSphl s
  | .jm imm => Sys2Proof.Machine.execJm imm s
  | .ei => Sys2Proof.Machine.execEi s
  | .cm imm => Sys2Proof.Machine.execCm imm s
  | .cpi imm => Sys2Proof.Machine.execCpi imm s
  -- the undefined opcodes (40_decode_table.md rules R104 and R105)
  | .undef op => Sys2Proof.Machine.execUndef op s

end Sys2Proof.Machine
end

