-- ==== Sys2Proof/Machine/Rom.lean ====
section
/-!
DEFINITION. The decoder ROM (40_decode_table.md): 256 descriptors, indexed by the opcode byte. It is a constant, with
no write port and no reset (R22, R107). The contents are spec/opcode_table.json's, row by row (R64; log entry 7).
-/

namespace Sys2Proof.Machine

/-- Opcodes 0x00 to 0x0F. -/
def romRow0 : List Descriptor :=
  [entryNone "NOP", entryImm16ToRegister "LXI" "B".toList,
   entryRegister "STAX" "B".toList, entryRegister "INX" "B".toList,
   entryRegister "INR" "B".toList, entryRegister "DCR" "B".toList,
   entryImm8ToRegister "MVI" "B".toList, entryNone "RLC",
   sentinel, entryRegister "DAD" "B".toList,
   entryRegister "LDAX" "B".toList, entryRegister "DCX" "B".toList,
   entryRegister "INR" "C".toList, entryRegister "DCR" "C".toList,
   entryImm8ToRegister "MVI" "C".toList, entryNone "RRC"]

/-- Opcodes 0x10 to 0x1F. -/
def romRow1 : List Descriptor :=
  [sentinel, entryImm16ToRegister "LXI" "D".toList,
   entryRegister "STAX" "D".toList, entryRegister "INX" "D".toList,
   entryRegister "INR" "D".toList, entryRegister "DCR" "D".toList,
   entryImm8ToRegister "MVI" "D".toList, entryNone "RAL",
   sentinel, entryRegister "DAD" "D".toList,
   entryRegister "LDAX" "D".toList, entryRegister "DCX" "D".toList,
   entryRegister "INR" "E".toList, entryRegister "DCR" "E".toList,
   entryImm8ToRegister "MVI" "E".toList, entryNone "RAR"]

/-- Opcodes 0x20 to 0x2F. -/
def romRow2 : List Descriptor :=
  [sentinel, entryImm16ToRegister "LXI" "H".toList,
   entryImm16 "SHLD", entryRegister "INX" "H".toList,
   entryRegister "INR" "H".toList, entryRegister "DCR" "H".toList,
   entryImm8ToRegister "MVI" "H".toList, entryNone "DAA",
   sentinel, entryRegister "DAD" "H".toList,
   entryImm16 "LHLD", entryRegister "DCX" "H".toList,
   entryRegister "INR" "L".toList, entryRegister "DCR" "L".toList,
   entryImm8ToRegister "MVI" "L".toList, entryNone "CMA"]

/-- Opcodes 0x30 to 0x3F. -/
def romRow3 : List Descriptor :=
  [sentinel, entryImm16ToRegister "LXI" "SP".toList,
   entryImm16 "STA", entryRegister "INX" "SP".toList,
   entryRegister "INR" "M".toList, entryRegister "DCR" "M".toList,
   entryImm8ToRegister "MVI" "M".toList, entryNone "STC",
   sentinel, entryRegister "DAD" "SP".toList,
   entryImm16 "LDA", entryRegister "DCX" "SP".toList,
   entryRegister "INR" "A".toList, entryRegister "DCR" "A".toList,
   entryImm8ToRegister "MVI" "A".toList, entryNone "CMC"]

/-- Opcodes 0x40 to 0x4F. -/
def romRow4 : List Descriptor :=
  [entryRegisterPair "MOV" "B".toList "B".toList, entryRegisterPair "MOV" "B".toList "C".toList,
   entryRegisterPair "MOV" "B".toList "D".toList, entryRegisterPair "MOV" "B".toList "E".toList,
   entryRegisterPair "MOV" "B".toList "H".toList, entryRegisterPair "MOV" "B".toList "L".toList,
   entryRegisterPair "MOV" "B".toList "M".toList, entryRegisterPair "MOV" "B".toList "A".toList,
   entryRegisterPair "MOV" "C".toList "B".toList, entryRegisterPair "MOV" "C".toList "C".toList,
   entryRegisterPair "MOV" "C".toList "D".toList, entryRegisterPair "MOV" "C".toList "E".toList,
   entryRegisterPair "MOV" "C".toList "H".toList, entryRegisterPair "MOV" "C".toList "L".toList,
   entryRegisterPair "MOV" "C".toList "M".toList, entryRegisterPair "MOV" "C".toList "A".toList]

/-- Opcodes 0x50 to 0x5F. -/
def romRow5 : List Descriptor :=
  [entryRegisterPair "MOV" "D".toList "B".toList, entryRegisterPair "MOV" "D".toList "C".toList,
   entryRegisterPair "MOV" "D".toList "D".toList, entryRegisterPair "MOV" "D".toList "E".toList,
   entryRegisterPair "MOV" "D".toList "H".toList, entryRegisterPair "MOV" "D".toList "L".toList,
   entryRegisterPair "MOV" "D".toList "M".toList, entryRegisterPair "MOV" "D".toList "A".toList,
   entryRegisterPair "MOV" "E".toList "B".toList, entryRegisterPair "MOV" "E".toList "C".toList,
   entryRegisterPair "MOV" "E".toList "D".toList, entryRegisterPair "MOV" "E".toList "E".toList,
   entryRegisterPair "MOV" "E".toList "H".toList, entryRegisterPair "MOV" "E".toList "L".toList,
   entryRegisterPair "MOV" "E".toList "M".toList, entryRegisterPair "MOV" "E".toList "A".toList]

/-- Opcodes 0x60 to 0x6F. -/
def romRow6 : List Descriptor :=
  [entryRegisterPair "MOV" "H".toList "B".toList, entryRegisterPair "MOV" "H".toList "C".toList,
   entryRegisterPair "MOV" "H".toList "D".toList, entryRegisterPair "MOV" "H".toList "E".toList,
   entryRegisterPair "MOV" "H".toList "H".toList, entryRegisterPair "MOV" "H".toList "L".toList,
   entryRegisterPair "MOV" "H".toList "M".toList, entryRegisterPair "MOV" "H".toList "A".toList,
   entryRegisterPair "MOV" "L".toList "B".toList, entryRegisterPair "MOV" "L".toList "C".toList,
   entryRegisterPair "MOV" "L".toList "D".toList, entryRegisterPair "MOV" "L".toList "E".toList,
   entryRegisterPair "MOV" "L".toList "H".toList, entryRegisterPair "MOV" "L".toList "L".toList,
   entryRegisterPair "MOV" "L".toList "M".toList, entryRegisterPair "MOV" "L".toList "A".toList]

/-- Opcodes 0x70 to 0x7F. -/
def romRow7 : List Descriptor :=
  [entryRegisterPair "MOV" "M".toList "B".toList, entryRegisterPair "MOV" "M".toList "C".toList,
   entryRegisterPair "MOV" "M".toList "D".toList, entryRegisterPair "MOV" "M".toList "E".toList,
   entryRegisterPair "MOV" "M".toList "H".toList, entryRegisterPair "MOV" "M".toList "L".toList,
   entryNone "HLT", entryRegisterPair "MOV" "M".toList "A".toList,
   entryRegisterPair "MOV" "A".toList "B".toList, entryRegisterPair "MOV" "A".toList "C".toList,
   entryRegisterPair "MOV" "A".toList "D".toList, entryRegisterPair "MOV" "A".toList "E".toList,
   entryRegisterPair "MOV" "A".toList "H".toList, entryRegisterPair "MOV" "A".toList "L".toList,
   entryRegisterPair "MOV" "A".toList "M".toList, entryRegisterPair "MOV" "A".toList "A".toList]

/-- Opcodes 0x80 to 0x8F. -/
def romRow8 : List Descriptor :=
  [entryRegister "ADD" "B".toList, entryRegister "ADD" "C".toList,
   entryRegister "ADD" "D".toList, entryRegister "ADD" "E".toList,
   entryRegister "ADD" "H".toList, entryRegister "ADD" "L".toList,
   entryRegister "ADD" "M".toList, entryRegister "ADD" "A".toList,
   entryRegister "ADC" "B".toList, entryRegister "ADC" "C".toList,
   entryRegister "ADC" "D".toList, entryRegister "ADC" "E".toList,
   entryRegister "ADC" "H".toList, entryRegister "ADC" "L".toList,
   entryRegister "ADC" "M".toList, entryRegister "ADC" "A".toList]

/-- Opcodes 0x90 to 0x9F. -/
def romRow9 : List Descriptor :=
  [entryRegister "SUB" "B".toList, entryRegister "SUB" "C".toList,
   entryRegister "SUB" "D".toList, entryRegister "SUB" "E".toList,
   entryRegister "SUB" "H".toList, entryRegister "SUB" "L".toList,
   entryRegister "SUB" "M".toList, entryRegister "SUB" "A".toList,
   entryRegister "SBB" "B".toList, entryRegister "SBB" "C".toList,
   entryRegister "SBB" "D".toList, entryRegister "SBB" "E".toList,
   entryRegister "SBB" "H".toList, entryRegister "SBB" "L".toList,
   entryRegister "SBB" "M".toList, entryRegister "SBB" "A".toList]

/-- Opcodes 0xA0 to 0xAF. -/
def romRowA : List Descriptor :=
  [entryRegister "ANA" "B".toList, entryRegister "ANA" "C".toList,
   entryRegister "ANA" "D".toList, entryRegister "ANA" "E".toList,
   entryRegister "ANA" "H".toList, entryRegister "ANA" "L".toList,
   entryRegister "ANA" "M".toList, entryRegister "ANA" "A".toList,
   entryRegister "XRA" "B".toList, entryRegister "XRA" "C".toList,
   entryRegister "XRA" "D".toList, entryRegister "XRA" "E".toList,
   entryRegister "XRA" "H".toList, entryRegister "XRA" "L".toList,
   entryRegister "XRA" "M".toList, entryRegister "XRA" "A".toList]

/-- Opcodes 0xB0 to 0xBF. -/
def romRowB : List Descriptor :=
  [entryRegister "ORA" "B".toList, entryRegister "ORA" "C".toList,
   entryRegister "ORA" "D".toList, entryRegister "ORA" "E".toList,
   entryRegister "ORA" "H".toList, entryRegister "ORA" "L".toList,
   entryRegister "ORA" "M".toList, entryRegister "ORA" "A".toList,
   entryRegister "CMP" "B".toList, entryRegister "CMP" "C".toList,
   entryRegister "CMP" "D".toList, entryRegister "CMP" "E".toList,
   entryRegister "CMP" "H".toList, entryRegister "CMP" "L".toList,
   entryRegister "CMP" "M".toList, entryRegister "CMP" "A".toList]

/-- Opcodes 0xC0 to 0xCF. -/
def romRowC : List Descriptor :=
  [entryNone "RNZ", entryRegister "POP" "B".toList,
   entryImm16 "JNZ", entryImm16 "JMP",
   entryImm16 "CNZ", entryRegister "PUSH" "B".toList,
   entryImm8 "ADI", entryRegister "RST" "0".toList,
   entryNone "RZ", entryNone "RET",
   entryImm16 "JZ", sentinel,
   entryImm16 "CZ", entryImm16 "CALL",
   entryImm8 "ACI", entryRegister "RST" "1".toList]

/-- Opcodes 0xD0 to 0xDF. -/
def romRowD : List Descriptor :=
  [entryNone "RNC", entryRegister "POP" "D".toList,
   entryImm16 "JNC", entryImm8 "OUT",
   entryImm16 "CNC", entryRegister "PUSH" "D".toList,
   entryImm8 "SUI", entryRegister "RST" "2".toList,
   entryNone "RC", sentinel,
   entryImm16 "JC", entryImm8 "IN",
   entryImm16 "CC", sentinel,
   entryImm8 "SBI", entryRegister "RST" "3".toList]

/-- Opcodes 0xE0 to 0xEF. -/
def romRowE : List Descriptor :=
  [entryNone "RPO", entryRegister "POP" "H".toList,
   entryImm16 "JPO", entryNone "XTHL",
   entryImm16 "CPO", entryRegister "PUSH" "H".toList,
   entryImm8 "ANI", entryRegister "RST" "4".toList,
   entryNone "RPE", entryNone "PCHL",
   entryImm16 "JPE", entryNone "XCHG",
   entryImm16 "CPE", sentinel,
   entryImm8 "XRI", entryRegister "RST" "5".toList]

/-- Opcodes 0xF0 to 0xFF. -/
def romRowF : List Descriptor :=
  [entryNone "RP", entryRegister "POP" "PSW".toList,
   entryImm16 "JP", entryNone "DI",
   entryImm16 "CP", entryRegister "PUSH" "PSW".toList,
   entryImm8 "ORI", entryRegister "RST" "6".toList,
   entryNone "RM", entryNone "SPHL",
   entryImm16 "JM", entryNone "EI",
   entryImm16 "CM", sentinel,
   entryImm8 "CPI", entryRegister "RST" "7".toList]

/-- The ROM's contents in opcode order (R22, R106). -/
def rom : List Descriptor :=
  romRow0 ++ romRow1 ++ romRow2 ++ romRow3 ++ romRow4 ++ romRow5 ++ romRow6 ++ romRow7 ++
  romRow8 ++ romRow9 ++ romRowA ++ romRowB ++ romRowC ++ romRowD ++ romRowE ++ romRowF

/-- "The ROM has exactly 256 entries" (R101): a missing entry stops the build here. -/
theorem rom_length : rom.length = 256 := by simp only [rom, List.length_append]; rfl

theorem opcode_in_rom (op : Byte) : op.toNat < rom.length := by
  rw [rom_length]; exact op.isLt

/-- `lookup(op) = ROM[op]`, a total function (R100, R101). -/
def lookup (op : Byte) : Descriptor := rom[op.toNat]'(opcode_in_rom op)

/-- `ROM_WORD_ENCODING` (R7, R109, decision D14): the OPEN packing of a descriptor into a ROM word, an argument. Any
packing that returns the same five fields will do. -/
structure RomWordEncoding where
  pack : Descriptor → Nat
  unpack : Nat → Descriptor
  unpack_pack : ∀ d, unpack (pack d) = d

/-- The ROM's word at an opcode under a packing. -/
def romWord (encoding : RomWordEncoding) (op : Byte) : Nat := encoding.pack (lookup op)

/-- A lookup that reads the packed word. -/
def lookupPacked (encoding : RomWordEncoding) (op : Byte) : Descriptor := encoding.unpack (romWord encoding op)

end Sys2Proof.Machine
end

