-- ==== Sys2Proof/Machine/Fetch.lean ====
section
/-!
DEFINITION. Fetching an instruction from the byte buffer (42_driver.md rule R153), and the driver's iteration as R153
writes it, with the ROM contents and the buffer as its arguments (10_state.md rule R32). `step` (Machine/Step.lean) runs the
decoded instruction instead; that the two agree is a statement of this package.
-/

namespace Sys2Proof.Machine

/-- The operand bytes a step reads: those at `cur + i`, `i` from 1, with `i < d.length` and `i < avail` (R153, R44). -/
def operandReads (buffer : Buffer) (cur length : Nat) : List Byte :=
  (List.range' 1 (min length (buffer.avail cur) - 1)).filterMap fun i => buffer.readByte (cur + i)

/-- The bytes a step reads: the opcode at the cursor, then as many operand bytes as its entry's length and the buffer
allow (R42, R44, R153). There are none when the cursor is not inside the buffer. -/
def fetchBytes (s : State) : List Byte :=
  match s.readByte s.cur with
  | none => []
  | some op => op :: operandReads s.buffer s.cur (lookup op).length

/-- The instruction at the cursor, or why none is executed: a step is enabled exactly when `cur < N` (R152). -/
def fetchInstr (s : State) : Except Refusal Instr :=
  if s.cur < s.len then
    match decode (fetchBytes s) with
    | .ok i => .ok i
    | .error .noByte => .error .noByte
  else .error .stepNotEnabled

/-- One iteration of the driver as R153 writes it: read the opcode, look its descriptor up, format, emit, advance. The ROM
contents, the buffer's bytes and `N` are parameters of the pass, so they are arguments and no part of the answer (R32). -/
def passStep (contents : Byte → Descriptor) (buffer : Buffer) (p : Progress) : Except Refusal Progress :=
  if p.cur < buffer.len then
    match buffer.readByte p.cur with
    | none => .error .noByte
    | some op =>
      renderEntry (contents op) (op :: operandReads buffer p.cur (contents op).length) buffer p
  else .error .stepNotEnabled

/-- `k` iterations of a pass, over one ROM and one buffer (R150, R32). -/
def passSteps (contents : Byte → Descriptor) (buffer : Buffer) : Nat → Progress → Except Refusal Progress
  | 0, p => .ok p
  | k + 1, p =>
    match passStep contents buffer p with
    | .ok q => passSteps contents buffer k q
    | .error r => .error r

/-- The driver's iteration over a state's own buffer, with the decoder ROM. -/
def driverStep (s : State) : Outcome := s.resume (passStep lookup s.buffer s.progress)

end Sys2Proof.Machine
end

