-- ==== Sys2Proof/Machine/Step.lean ====
section
/-!
DEFINITION. One step of the machine: one iteration of the driver (42_driver.md rules R150, R152, R153).
-/

namespace Sys2Proof.Machine

/-- Fetch and decode the instruction at the cursor, and execute it. -/
def step (s : State) : Host.Outcome State Fault Refusal :=
  match fetchInstr s with
  | .ok i => exec i s
  | .error r => .refused r

/-- The state with a table word's bytes loaded where the next step fetches (log entry 5). -/
def State.withFetchWord (s : State) (nbits w : Nat) : State :=
  placeBytes (fetchSite s) (tableBytes nbits w) s

end Sys2Proof.Machine
end

