-- ==== Sys2Proof/Safety.lean ====
section
/-!
DEFINITION. What a legal state, an enabled step and a finished pass are, in the terms the statements use.
-/

namespace Sys2Proof.Machine

/-- A state a pass can be in: the buffer within `BUF_MAX`, the cursor within the buffer, the buffer's cells in canonical
form and inside it (R25, R26). -/
abbrev State.Inv (s : State) : Prop :=
  s.len ≤ Config.bufMax ∧ s.cur ≤ s.len ∧ s.mem.wf = true ∧ s.mem.below s.len = true

/-- A step is enabled: the cursor is inside an admitted buffer (R152, R25). -/
abbrev State.Enabled (s : State) : Prop := s.cur < s.len ∧ s.len ≤ Config.bufMax

/-- The pass is over (R154). -/
abbrev State.Final (s : State) : Prop := s.cur = s.len

/-- The characters a line may hold: `0-9 a-f A-Z , $ -` and space (R140). -/
def lineChars : Text :=
  ['0', '1', '2', '3', '4', '5', '6', '7', '8', '9', 'a', 'b', 'c', 'd', 'e', 'f',
   'A', 'B', 'C', 'D', 'E', 'F', 'G', 'H', 'I', 'J', 'K', 'L', 'M', 'N', 'O', 'P', 'Q', 'R', 'S', 'T',
   'U', 'V', 'W', 'X', 'Y', 'Z', ',', '$', '-', ' ']

/-- A line has 16 to 29 of those characters (R140), so no newline. -/
abbrev LineOk (line : Line) : Prop := 16 ≤ line.length ∧ line.length ≤ 29 ∧ ∀ c ∈ line, c ∈ lineChars

/-- Every line is well formed, and the lines and the cursor keep pace: each step emitted one line and advanced by 1 to 3
(R155, R140). -/
abbrev State.OutputInv (s : State) : Prop :=
  (∀ line ∈ s.out, LineOk line) ∧ s.out.length ≤ s.cur ∧ s.cur ≤ 3 * s.out.length

end Sys2Proof.Machine
end

