-- ==== Sys2Proof/Certificates/Slice0/Obligations.lean ====
section
/-!
DEFINITION. The statements for the provers, in the order of OBLIGATIONS.json. The helpers of `Sys2Proof.Claims` write a
line down from 41_formatter.md afresh, without the model's own formatter.
-/

namespace Sys2Proof.Claims

open Sys2Proof.Machine

/-- Operand byte `j` as a line shows it: the instruction's, or 00 when it lies beyond the buffer (R121, decision D6). -/
def shown (s : State) (j : Nat) (b : Byte) : Byte := if s.cur + j < s.len then b else 0

/-- A line: the 4-digit offset, the bytes, spaces up to column 14, and the rest (R122 to R125; lower-case digits by
decision D2, log entry 8). -/
def lineText (offset : Nat) (bytes : List Byte) (rest : Text) : Line :=
  hex4 .lower (BitVec.ofNat 16 offset) ++ [' '] ++ (bytes.flatMap fun b => hex2 .lower b ++ [' ']) ++
    spaces (9 - 3 * bytes.length) ++ rest

/-- A mnemonic with an operand: padded to four columns, three spaces, the operand (R126; widths by decision D21). -/
def operandTail (mnemonic : String) (operand : Text) : Text := padRight mnemonic.toList 4 ++ spaces 3 ++ operand

/-- `$XX` (R132; lower case by decision D3). -/
def byteOperand (b : Byte) : Text := "$".toList ++ hex2 .lower b

/-- `$YYXX`, high byte first (R133; lower case by decision D3). -/
def wordOperand (lo hi : Byte) : Text := "$".toList ++ hex2 .lower hi ++ hex2 .lower lo

/-- The low byte of a 16-bit immediate, stored at +1 (R42). -/
def lowByte (imm : Word16) : Byte := BitVec.ofNat 8 (imm.toNat % 256)

/-- The high byte of a 16-bit immediate, stored at +2 (R42). -/
def highByte (imm : Word16) : Byte := BitVec.ofNat 8 (imm.toNat / 256)

/-- Executing `i` at `s` answers the next state in which one line, showing `bytes` and ending in `rest`, is appended to the
output, the cursor has moved over the bytes as far as the buffer goes (R137, decision D7, log entry 12), and NOTHING
ELSE has changed. -/
def Renders (i : Instr) (s : State) (bytes : List Byte) (rest : Text) : Prop :=
  exec i s =
    .next { mem := s.mem, len := s.len, cur := s.cur + min bytes.length (s.len - s.cur),
            out := s.out ++ [lineText s.cur bytes rest] }

/-- Register codes and names (R62, R108). -/
def registers : List (Reg8 × Nat × String) :=
  [(.b, 0, "B"), (.c, 1, "C"), (.d, 2, "D"), (.e, 3, "E"), (.h, 4, "H"), (.l, 5, "L"), (.m, 6, "M"), (.a, 7, "A")]

/-- Pair codes and names of LXI, INX, DAD and DCX (R62). -/
def pairs : List (RegPair × Nat × String) := [(.b, 0, "B"), (.d, 1, "D"), (.h, 2, "H"), (.sp, 3, "SP")]

/-- Pair codes and names of PUSH and POP (R62). -/
def stackPairs : List (StackPair × Nat × String) := [(.b, 0, "B"), (.d, 1, "D"), (.h, 2, "H"), (.psw, 3, "PSW")]

/-- Pair codes and names of STAX and LDAX (R202, R209). -/
def indexPairs : List (IndexPair × Nat × String) := [(.b, 0, "B"), (.d, 1, "D")]

/-- The twelve opcodes of R105. -/
def undefinedSet : List Byte := [0x08, 0x10, 0x18, 0x20, 0x28, 0x30, 0x38, 0xCB, 0xD9, 0xDD, 0xED, 0xFD]

/-- The decoded transfers of control that R156 names: jumps, calls, returns, restarts and the halt. -/
def controlTransfers : List (Word16 → Instr) :=
  [.jmp, .jnz, .jz, .jnc, .jc, .jpo, .jpe, .jp, .jm, .call, .cnz, .cz, .cnc, .cc, .cpo, .cpe, .cp, .cm,
   fun _ => .ret, fun _ => .rnz, fun _ => .rz, fun _ => .rnc, fun _ => .rc, fun _ => .rpo, fun _ => .rpe, fun _ => .rp,
   fun _ => .rm, fun _ => .pchl, fun _ => .hlt,
   fun _ => .rst 0, fun _ => .rst 1, fun _ => .rst 2, fun _ => .rst 3, fun _ => .rst 4, fun _ => .rst 5, fun _ => .rst 6,
   fun _ => .rst 7]

/-- The listing of a byte sequence that starts at an offset, made from the bytes alone, with no cursor and no buffer:
look the first byte up, format, drop the instruction's bytes, go on (R153, R162). The first argument bounds the number of
lines. -/
def listing : Nat → Nat → List Byte → List Line
  | 0, _, _ => []
  | _ + 1, _, [] => []
  | fuel + 1, offset, op :: rest =>
    formatLine (lookup op) offset (rest.length + 1) (op :: rest) ::
      listing fuel (offset + (lookup op).length) ((op :: rest).drop (lookup op).length)

end Sys2Proof.Claims

open Sys2Proof Sys2Proof.Machine Sys2Proof.Claims

/-! ## Encoding -/

/-- Every well-formed instruction, with every operand, is read back from its own bytes, whatever follows them. The opcode
values are the 8080's (93_implementation_defined.md G1; log entry 7). -/
def Obligations.DecodeReadsBackEveryEncodedInstruction : Prop :=
  ∀ (i : Instr) (rest : List Byte), i.wellFormed = true → decode (encode i ++ rest) = .ok i

/-- The other direction: the bytes of the instruction decoded from an opcode and two more bytes are the first ones of
these, as many as the ROM entry's length says; and that instruction is well formed. -/
def Obligations.EncodeGivesBackTheConsumedBytes : Prop :=
  ∀ op lo hi : Byte,
    (decodeOpcode op lo hi).wellFormed = true ∧
      encode (decodeOpcode op lo hi) = [op, lo, hi].take (lookup op).length

/-- Decoding fails on the empty sequence only, and reads a missing operand byte as 00. -/
def Obligations.DecodeIsTotalOnNonemptyBytes : Prop :=
  decode [] = .error .noByte ∧
    (∀ (op : Byte) (rest : List Byte), ∃ i, decode (op :: rest) = .ok i ∧ i.wellFormed = true) ∧
    (∀ op lo : Byte, decode [op] = decode [op, 0, 0] ∧ decode [op, lo] = decode [op, lo, 0])

/-- Words written out from the encodings of the spec decode to the instructions they stand for, one of each family of
the opcode map and each format. -/
def Obligations.WrittenOutWordsDecode : Prop :=
  decode [0b00000000] = .ok .nop ∧
    decode [0b00000001, 0x34, 0x12] = .ok (.lxi .b 0x1234) ∧
    decode [0b00110110, 0x7F] = .ok (.mvi .m 0x7F) ∧
    decode [0b01001000] = .ok (.mov .c .b) ∧
    decode [0b01110110] = .ok .hlt ∧
    decode [0b10011110] = .ok (.sbb .m) ∧
    decode [0b11000011, 0x00, 0x10] = .ok (.jmp 0x1000) ∧
    decode [0b11110101] = .ok (.push .psw) ∧
    decode [0b11011011, 0xFE] = .ok (.inp 0xFE) ∧
    decode [0b11101111] = .ok (.rst 5) ∧
    decode [0b11001011] = .ok (.undef 0xCB)

/-! ## The decoder ROM -/

/-- R102, for the ROM read through any packing of its words (R109): every entry has the length its class fixes. -/
def Obligations.RomLengthIsTheClassLength : Prop :=
  ∀ (encoding : RomWordEncoding) (op : Byte),
    (lookupPacked encoding op).length = classLength (lookupPacked encoding op).operandClass ∧
      classLength .none = 1 ∧ classLength .singleRegister = 1 ∧ classLength .registerPair = 1 ∧
      classLength .immediate8ToRegister = 2 ∧ classLength .immediate8Standalone = 2 ∧
      classLength .immediate16ToRegister = 3 ∧ classLength .immediate16Standalone = 3

/-- Through any packing: an entry names a first register exactly in the four classes that show one, and a second exactly
in class RegisterPair (the spec's decision D13). -/
def Obligations.RomNamesTheRegistersItsClassShows : Prop :=
  ∀ (encoding : RomWordEncoding) (op : Byte),
    let d := lookupPacked encoding op
    (d.register1.isSome = true ↔
        d.operandClass ∈ [OperandClass.singleRegister, .registerPair, .immediate8ToRegister, .immediate16ToRegister]) ∧
      (d.register2.isSome = true ↔ d.operandClass = .registerPair)

/-- A step shows `--` exactly when the byte at the cursor is one of the twelve undefined opcodes (which twelve they are is
the spec's decision D15; log entry 7). -/
def Obligations.SentinelIsShownForExactlyTheTwelve : Prop :=
  ∀ s : State, s.Enabled →
    ∃ t line, step s = .next t ∧ t.out = s.out ++ [line] ∧
      (line.drop 14 = "--".toList ↔ s.mem.read s.cur ∈ undefinedSet)

/-! ## The step -/

/-- A step is the execution of the instruction that the bytes at the cursor decode to, bytes beyond the buffer counting as
00; nothing is added around it. -/
def Obligations.StepExecutesTheDecodedInstruction : Prop :=
  ∀ s : State, s.cur < s.len →
    step s = exec (decodeOpcode (s.mem.read s.cur) (shown s 1 (s.mem.read (s.cur + 1)))
        (shown s 2 (s.mem.read (s.cur + 2)))) s ∧
      ∀ i, decode (fetchBytes s) = .ok i → step s = exec i s

/-- A step reads the bytes at `cur` to `cur + k - 1` in ascending order and no others, `k` the smaller of the entry's length
and the bytes left; it is at most 3 (20_memory.md section 4, derived there). -/
def Obligations.StepReadsTheInstructionsBytesOnly : Prop :=
  ∀ s : State, s.cur < s.len →
    fetchBytes s =
        (List.range (min (lookup (s.mem.read s.cur)).length (s.len - s.cur))).map (fun j => s.mem.read (s.cur + j)) ∧
      (fetchBytes s).length ≤ 3

/-- The machine that decodes and executes and the driver that looks the opcode up in the ROM and formats its entry, as R153
writes the step, are the same machine, in every state (the split into decode and exec is the model's choice, log entry 15;
the clamped advance is the spec's decision D7, log entry 12). -/
def Obligations.StepIsTheDriversIteration : Prop :=
  ∀ s : State, step s = driverStep s

/-- R152, for the buffers the block admits. -/
def Obligations.StepIsEnabledExactlyBelowTheEnd : Prop :=
  ∀ s : State, s.len ≤ Config.bufMax →
    ((∃ t, step s = .next t) ↔ s.cur < s.len) ∧ (s.cur = s.len → ¬ ∃ t, step s = .next t)

/-- Progress: a step moves the cursor forward by 1 to 3 and never past the buffer's end (42_driver.md section 2, derived
there; the clamp is decision D7). -/
def Obligations.StepAdvancesWithinTheBuffer : Prop :=
  ∀ s t : State, step s = .next t → s.cur < t.cur ∧ t.cur ≤ s.cur + 3 ∧ t.cur ≤ t.len

/-- No instruction stores anything, so after any number of steps every byte of the buffer reads as before (20_memory.md
section 7). -/
def Obligations.BufferIsNeverWritten : Prop :=
  (∀ (i : Instr) (s t : State), exec i s = .next t →
      t.mem = s.mem ∧ t.len = s.len ∧ ∀ a, t.readByte a = s.readByte a) ∧
    ∀ (k : Nat) (s t : State), core.run k s = .next t → ∀ a, t.readByte a = s.readByte a

/-- The frame of every instruction: the lines already written stay, one line is added, and no other field of the state
changes but the cursor (10_state.md section 5). -/
def Obligations.EveryInstructionAppendsOneLine : Prop :=
  ∀ (i : Instr) (s t : State), exec i s = .next t →
    ∃ line : Line, t = { mem := s.mem, len := s.len, cur := t.cur, out := s.out ++ [line] }

/-- The bytes of the stream grow by the line and one LF, and the line itself holds no LF (the newline is decision D9; log
entry 13). -/
def Obligations.StreamGrowsByTheLineAndOneNewline : Prop :=
  ∀ s t : State, step s = .next t →
    ∃ line : Line, '\n' ∉ line ∧ streamText t.out = streamText s.out ++ line ++ ['\n']

/-- The invariant: buffer at most `BUF_MAX`, cursor within it, its memory in canonical form. -/
def Obligations.StepKeepsTheStateInvariant : Prop :=
  ∀ s t : State, s.Inv → step s = .next t → t.Inv

/-- Reset leaves the invariants, the cursor at 0 and no line (the spec's decision D11; the empty buffer is the model's
choice, log entry 5). No step is enabled over an empty buffer (decision D18), and that a step there is the refusal
`stepNotEnabled` is the model's choice (log entry 3). -/
def Obligations.ResetMeetsTheInvariants : Prop :=
  State.reset.Inv ∧ State.reset.OutputInv ∧ State.reset.cur = 0 ∧ State.reset.out = [] ∧
    step State.reset = .refused .stepNotEnabled

/-- Every line written has 16 to 29 characters out of `0-9 a-f A-Z , $ -` and space, and lines and cursor keep pace
(41_formatter.md section 5 and 42_driver.md section 2, both derived there). -/
def Obligations.StepKeepsTheOutputInvariant : Prop :=
  ∀ s t : State, s.OutputInv → step s = .next t → t.OutputInv

/-- A step whose instruction runs past the end stops the pass exactly at the end; one whose instruction is complete advances
by its whole length (42_driver.md section 2, derived there; the clamp is decision D7). That one more step is the refusal
`stepNotEnabled` is the model's choice (log entry 3). -/
def Obligations.TruncationEndsThePass : Prop :=
  ∀ s : State, s.Enabled →
    let d := lookup (s.mem.read s.cur)
    ∃ t, step s = .next t ∧
      (s.len - s.cur < d.length → t.cur = t.len ∧ step t = .refused .stepNotEnabled) ∧
      (d.length ≤ s.len - s.cur → t.cur = s.cur + d.length)

/-- R160. -/
def Obligations.UnknownOpcodesNeverStopThePass : Prop :=
  sentinel.length = 1 ∧
    ∀ s : State, s.Enabled → lookup (s.mem.read s.cur) = sentinel → ∃ t, step s = .next t ∧ t.cur = s.cur + 1

/-- R156: a decoded jump, call, return, restart or halt is rendered, and the cursor moves by the formatter's `advance`,
whatever address it carries. -/
def Obligations.NoControlFlowIsFollowed : Prop :=
  ∀ transfer ∈ controlTransfers, ∀ (address : Word16) (s : State), s.Enabled →
    ∃ f, format (lookup (opcodeOf (transfer address))) s.cur (s.len - s.cur) (encode (transfer address)) = .ok f ∧
      exec (transfer address) s =
        .next { mem := s.mem, len := s.len, cur := s.cur + f.advance, out := s.out ++ [f.line] }

/-- A step's answer depends on the buffer only through the bytes it consumes (20_memory.md section 4, derived there). -/
def Obligations.OtherBytesDoNotAffectAStep : Prop :=
  ∀ (s t : State) (mem' : Memory), step s = .next t →
    (∀ j < min (lookup (s.mem.read s.cur)).length (s.len - s.cur), mem'.read (s.cur + j) = s.mem.read (s.cur + j)) →
    step { s with mem := mem' } = .next { t with mem := mem' }

/-! ## The pass -/

/-- A launch of an image of at most `BUF_MAX` bytes starts a pass over exactly these bytes, at offset 0 with no line
(decision D11); a longer image is refused (decision D8). -/
def Obligations.LaunchStartsAPassOverTheImage : Prop :=
  ∀ image : List Byte,
    (image.length ≤ Config.bufMax →
      ∃ s, launch image = .next s ∧ s.Inv ∧ s.OutputInv ∧ s.len = image.length ∧ s.cur = 0 ∧ s.out = [] ∧
        ∀ a, s.readByte a = image[a]?) ∧
    (Config.bufMax < image.length → launch image = .refused .bufferTooLong)

/-- From every state of a pass, the pass ends at the buffer's end after at most as many steps as bytes are left and at
least a third of them, with one line for each step (42_driver.md section 2, derived there; the clamp is decision D7). That
one more step is the refusal `stepNotEnabled` is the model's choice (log entry 3). -/
def Obligations.EveryPassEnds : Prop :=
  ∀ s : State, s.Inv →
    ∃ k t, k ≤ s.len - s.cur ∧ s.len - s.cur ≤ 3 * k ∧ core.run k s = .next t ∧ t.cur = t.len ∧
      t.out.length = s.out.length + k ∧ core.run (k + 1) s = .refused .stepNotEnabled

/-- The pass over an image writes the image's listing: the state machine with its cursor refines the function on byte
sequences (the start values are decision D11, log entry 18; the longest image is decision D8, log entry 4; the clamped
advance is decision D7, log entry 12). -/
def Obligations.PassWritesTheListing : Prop :=
  ∀ image : List Byte, image.length ≤ Config.bufMax →
    ∃ s k t, launch image = .next s ∧ core.run k s = .next t ∧ t.cur = image.length ∧
      t.out = listing image.length 0 image

/-- A second pass over the same buffer repeats the first: nothing carries over (70_reset_and_hazards.md section 1; the
start values are decision D11). -/
def Obligations.SecondPassRepeatsTheFirst : Prop :=
  ∀ (image : List Byte) (s t : State) (k : Nat), launch image = .next s → core.run k s = .next t → t.Final →
    t.restart = s ∧ core.run k t.restart = .next t

/-- A word placed for the next step is the instruction the next step executes (the model's own operation; log entry 5). -/
def Obligations.PlacedWordIsExecutedNext : Prop :=
  ∀ (s : State) (nbits w : Nat) (i : Instr), s.mem.wf = true → decodeTableWord nbits w = some i →
    step (s.withFetchWord nbits w) = exec i (s.withFetchWord nbits w)

/-! ## The formatter -/

/-- R121: only the available bytes matter, every missing one counts as 00, and the opcode is always the real one. -/
def Obligations.MissingBytesCountAsZero : Prop :=
  ∀ (d : Descriptor) (offset avail : Nat) (b : List Byte),
    format d offset avail b = format d offset avail (b.take avail ++ List.replicate 3 0) ∧
      (∀ i, i < avail → availableByte avail b i = b.getD i 0) ∧ (∀ i, avail ≤ i → availableByte avail b i = 0) ∧
      (1 ≤ avail → availableByte avail b 0 = b.getD 0 0)

/-- R136, wherever the formatter is defined. -/
def Obligations.TotalLengthIsTheDescriptorsLength : Prop :=
  ∀ (d : Descriptor) (offset avail : Nat) (b : List Byte), 1 ≤ avail → offset + avail ≤ Config.bufMax →
    ∃ f, format d offset avail b = .ok f ∧ f.totalLength = d.length

/-- The advance is the length, clamped to the bytes left (decision D7; log entry 12): equal to `totalLength` for a complete
instruction, and up to the buffer's end for a truncated one. -/
def Obligations.AdvanceIsTheClampedLength : Prop :=
  ∀ (d : Descriptor) (offset avail : Nat) (b : List Byte), 1 ≤ avail → offset + avail ≤ Config.bufMax →
    ∃ f, format d offset avail b = .ok f ∧ f.advance = min d.length avail ∧
      (d.length ≤ avail → f.advance = f.totalLength) ∧ (avail < d.length → offset + f.advance = offset + avail)

/-- The descriptor's bytes stand from column 5 on, the padding is three spaces for each slot left over, and the two together
are the nine characters of columns 5 to 13 (41_formatter.md section 2; that a truncated instruction's missing bytes are shown
as 00 in their slots is the spec's decision D6, log entry 11). -/
def Obligations.BytesAndPaddingFillNineColumns : Prop :=
  ∀ (d : Descriptor) (offset avail : Nat) (b : List Byte) (f : Formatted), 1 ≤ d.length → d.length ≤ 3 →
    format d offset avail b = .ok f →
    ((f.line.drop 5).take 9).length = 9 ∧ ((f.line.drop 5).take 9).drop (3 * d.length) = spaces (3 * (3 - d.length)) ∧
      (f.line.drop 5).take (3 * d.length) =
        (List.range d.length).flatMap (fun i => hex2 Config.hexCaseBytes (availableByte avail b i) ++ [' '])

/-- The mnemonic stands at column 14 and ends a line of class None; otherwise the operand stands at column 21 and ends the
line (41_formatter.md sections 2 and 5; no padding without an operand is decision D4, the widths D21; log entry 9). -/
def Obligations.MnemonicAndOperandStandInTheirColumns : Prop :=
  ∀ s : State, s.Enabled →
    let d := lookup (s.mem.read s.cur)
    ∃ t line, step s = .next t ∧ t.out = s.out ++ [line] ∧
      (line.drop 14).take d.mnemonic.length = d.mnemonic ∧
      (d.operandClass = .none → line.length = 14 + d.mnemonic.length) ∧
      (d.operandClass ≠ .none →
        line.drop 21 = operandText d (shown s 1 (s.mem.read (s.cur + 1))) (shown s 2 (s.mem.read (s.cur + 2))) ∧
          line.length = 21 + (line.drop 21).length)

/-! ## The instructions, by opcode range and operand class -/

/-- R200: the entry, the single byte, the line that ends with the mnemonic, the example at offset 0; never truncated. -/
def Obligations.NopRowOfTheRom : Prop :=
  lookup 0x00 = { mnemonic := "NOP".toList, operandClass := .none, length := 1, register1 := none, register2 := none } ∧
    encode .nop = [0b00000000] ∧
    ∀ s : State, s.Enabled →
      ∃ line : Line, exec .nop s = .next { mem := s.mem, len := s.len, cur := s.cur + 1, out := s.out ++ [line] } ∧
        line.drop 14 = "NOP".toList ∧ (s.cur = 0 → line = "0000 00       NOP".toList)

/-- NOP, RLC, RRC, RAL, RAR, DAA, CMA, STC, CMC (opcodes: 93_implementation_defined.md G1, log entry 7; layout: decisions
D2, D4, D7). -/
def Obligations.LowPlainInstructionsShowTheirName : Prop :=
  ∀ s : State, s.Enabled →
    ∀ row ∈ [(Instr.nop, (0x00 : Byte), "NOP"), (.rlc, 0x07, "RLC"), (.rrc, 0x0F, "RRC"), (.ral, 0x17, "RAL"),
      (.rar, 0x1F, "RAR"), (.daa, 0x27, "DAA"), (.cma, 0x2F, "CMA"), (.stc, 0x37, "STC"), (.cmc, 0x3F, "CMC")],
    Renders row.1 s [row.2.1] row.2.2.toList

/-- LXI on every pair and immediate, complete or truncated (G1; D3, D6, D7). -/
def Obligations.LxiShowsPairAndWord : Prop :=
  ∀ s : State, s.Enabled → ∀ (r : RegPair) (n : Nat) (name : String) (imm : Word16), (r, n, name) ∈ pairs →
    let lo := shown s 1 (lowByte imm)
    let hi := shown s 2 (highByte imm)
    Renders (.lxi r imm) s [BitVec.ofNat 8 (0x01 + 16 * n), lo, hi]
      (operandTail "LXI" (name.toList ++ ",".toList ++ wordOperand lo hi))

/-- INX, DAD, DCX on every pair, and STAX, LDAX on `B` and `D` (G1; D4, D7). -/
def Obligations.PairInstructionsShowTheirPair : Prop :=
  ∀ s : State, s.Enabled →
    (∀ row ∈ [(Instr.inx, 0x03, "INX"), (Instr.dad, 0x09, "DAD"), (Instr.dcx, 0x0B, "DCX")],
      ∀ (r : RegPair) (n : Nat) (name : String), (r, n, name) ∈ pairs →
        Renders (row.1 r) s [BitVec.ofNat 8 (row.2.1 + 16 * n)] (operandTail row.2.2 name.toList)) ∧
    (∀ row ∈ [(Instr.stax, 0x02, "STAX"), (Instr.ldax, 0x0A, "LDAX")],
      ∀ (r : IndexPair) (n : Nat) (name : String), (r, n, name) ∈ indexPairs →
        Renders (row.1 r) s [BitVec.ofNat 8 (row.2.1 + 16 * n)] (operandTail row.2.2 name.toList))

/-- INR and DCR on every register, `M` among them (G1; D4, D7). -/
def Obligations.IncrementAndDecrementShowTheirRegister : Prop :=
  ∀ s : State, s.Enabled → ∀ row ∈ [(Instr.inr, 0x04, "INR"), (Instr.dcr, 0x05, "DCR")],
    ∀ (r : Reg8) (n : Nat) (name : String), (r, n, name) ∈ registers →
      Renders (row.1 r) s [BitVec.ofNat 8 (row.2.1 + 8 * n)] (operandTail row.2.2 name.toList)

/-- MVI on every register and immediate, complete or truncated (G1; D3, D6, D7). -/
def Obligations.MviShowsRegisterAndByte : Prop :=
  ∀ s : State, s.Enabled → ∀ (r : Reg8) (n : Nat) (name : String) (imm : Byte), (r, n, name) ∈ registers →
    let lo := shown s 1 imm
    Renders (.mvi r imm) s [BitVec.ofNat 8 (0x06 + 8 * n), lo]
      (operandTail "MVI" (name.toList ++ ",".toList ++ byteOperand lo))

/-- SHLD, LHLD, STA, LDA: the address is shown; nothing is loaded or stored (G1; D3, D6, D7). -/
def Obligations.DirectAddressInstructionsShowTheirAddress : Prop :=
  ∀ s : State, s.Enabled → ∀ row ∈ [(Instr.shld, (0x22 : Byte), "SHLD"), (Instr.lhld, 0x2A, "LHLD"),
      (Instr.sta, 0x32, "STA"), (Instr.lda, 0x3A, "LDA")], ∀ imm : Word16,
    let lo := shown s 1 (lowByte imm)
    let hi := shown s 2 (highByte imm)
    Renders (row.1 imm) s [row.2.1, lo, hi] (operandTail row.2.2 (wordOperand lo hi))

/-- MOV between every two registers but `M,M`, destination first (G1, G5; D7); the term `MOV M,M`, which no byte decodes
to, is refused (log entry 14). -/
def Obligations.MovShowsDestinationAndSource : Prop :=
  (∀ s : State, s.Enabled →
    ∀ (dst src : Reg8) (n k : Nat) (dstName srcName : String), (dst, n, dstName) ∈ registers →
      (src, k, srcName) ∈ registers → ¬(n = 6 ∧ k = 6) →
      Renders (.mov dst src) s [BitVec.ofNat 8 (0x40 + 8 * n + k)]
        (operandTail "MOV" (dstName.toList ++ ",".toList ++ srcName.toList))) ∧
  ∀ s : State, exec (.mov .m .m) s = .refused .noRomEntry

/-- ADD, ADC, SUB, SBB, ANA, XRA, ORA, CMP on every register (G1; D4, D7). -/
def Obligations.RegisterArithmeticShowsItsRegister : Prop :=
  ∀ s : State, s.Enabled →
    ∀ row ∈ [(Instr.add, 0x80, "ADD"), (Instr.adc, 0x88, "ADC"), (Instr.sub, 0x90, "SUB"), (Instr.sbb, 0x98, "SBB"),
      (Instr.ana, 0xA0, "ANA"), (Instr.xra, 0xA8, "XRA"), (Instr.ora, 0xB0, "ORA"), (Instr.cmp, 0xB8, "CMP")],
    ∀ (r : Reg8) (n : Nat) (name : String), (r, n, name) ∈ registers →
      Renders (row.1 r) s [BitVec.ofNat 8 (row.2.1 + n)] (operandTail row.2.2 name.toList)

/-- PUSH and POP on every pair, `PSW` among them (G1; D4, D7). -/
def Obligations.StackInstructionsShowTheirPair : Prop :=
  ∀ s : State, s.Enabled → ∀ row ∈ [(Instr.pop, 0xC1, "POP"), (Instr.push, 0xC5, "PUSH")],
    ∀ (r : StackPair) (n : Nat) (name : String), (r, n, name) ∈ stackPairs →
      Renders (row.1 r) s [BitVec.ofNat 8 (row.2.1 + 16 * n)] (operandTail row.2.2 name.toList)

/-- ADI, ACI, SUI, SBI, ANI, XRI, ORI, CPI: the immediate is shown, complete or truncated (G1; D3, D6, D7). -/
def Obligations.ImmediateArithmeticShowsItsByte : Prop :=
  ∀ s : State, s.Enabled →
    ∀ row ∈ [(Instr.adi, (0xC6 : Byte), "ADI"), (Instr.aci, 0xCE, "ACI"), (Instr.sui, 0xD6, "SUI"),
      (Instr.sbi, 0xDE, "SBI"), (Instr.ani, 0xE6, "ANI"), (Instr.xri, 0xEE, "XRI"), (Instr.ori, 0xF6, "ORI"),
      (Instr.cpi, 0xFE, "CPI")], ∀ imm : Byte,
    let lo := shown s 1 imm
    Renders (row.1 imm) s [row.2.1, lo] (operandTail row.2.2 (byteOperand lo))

/-- JMP, CALL, the eight Jcc and the eight Ccc: the address is shown, complete or truncated, and the cursor goes on to the
next instruction (G1; D3, D6, D7). -/
def Obligations.JumpsAndCallsShowTheirAddress : Prop :=
  ∀ s : State, s.Enabled →
    ∀ row ∈ [(Instr.jnz, (0xC2 : Byte), "JNZ"), (Instr.jmp, 0xC3, "JMP"), (Instr.cnz, 0xC4, "CNZ"),
      (Instr.jz, 0xCA, "JZ"), (Instr.cz, 0xCC, "CZ"), (Instr.call, 0xCD, "CALL"), (Instr.jnc, 0xD2, "JNC"),
      (Instr.cnc, 0xD4, "CNC"), (Instr.jc, 0xDA, "JC"), (Instr.cc, 0xDC, "CC"), (Instr.jpo, 0xE2, "JPO"),
      (Instr.cpo, 0xE4, "CPO"), (Instr.jpe, 0xEA, "JPE"), (Instr.cpe, 0xEC, "CPE"), (Instr.jp, 0xF2, "JP"),
      (Instr.cp, 0xF4, "CP"), (Instr.jm, 0xFA, "JM"), (Instr.cm, 0xFC, "CM")], ∀ imm : Word16,
    let lo := shown s 1 (lowByte imm)
    let hi := shown s 2 (highByte imm)
    Renders (row.1 imm) s [row.2.1, lo, hi] (operandTail row.2.2 (wordOperand lo hi))

/-- RET, the eight Rcc, and XTHL, PCHL, XCHG, SPHL (G1; D2, D4, D7). -/
def Obligations.ReturnsAndExchangesShowTheirName : Prop :=
  ∀ s : State, s.Enabled →
    ∀ row ∈ [(Instr.rnz, (0xC0 : Byte), "RNZ"), (.rz, 0xC8, "RZ"), (.ret, 0xC9, "RET"), (.rnc, 0xD0, "RNC"),
      (.rc, 0xD8, "RC"), (.rpo, 0xE0, "RPO"), (.xthl, 0xE3, "XTHL"), (.rpe, 0xE8, "RPE"), (.pchl, 0xE9, "PCHL"),
      (.xchg, 0xEB, "XCHG"), (.rp, 0xF0, "RP"), (.rm, 0xF8, "RM"), (.sphl, 0xF9, "SPHL")],
    Renders row.1 s [row.2.1] row.2.2.toList

/-- HLT, DI, EI, RST n, IN and OUT are rendered like any other entry and the pass goes on: no halt, no mask, no restart, no
port (60_exceptions.md section 4, derived there; the digit of RST is decision D5, log entry 10; G1; D3, D4, D6, D7). -/
def Obligations.SystemInstructionsAreRenderedOnly : Prop :=
  ∀ s : State, s.Enabled →
    (∀ row ∈ [(Instr.hlt, (0x76 : Byte), "HLT"), (.di, 0xF3, "DI"), (.ei, 0xFB, "EI")],
      Renders row.1 s [row.2.1] row.2.2.toList) ∧
    (∀ row ∈ [((0 : Fin 8), (0xC7 : Byte), "0"), (1, 0xCF, "1"), (2, 0xD7, "2"), (3, 0xDF, "3"), (4, 0xE7, "4"),
        (5, 0xEF, "5"), (6, 0xF7, "6"), (7, 0xFF, "7")],
      Renders (.rst row.1) s [row.2.1] (operandTail "RST" row.2.2.toList)) ∧
    (∀ row ∈ [(Instr.outp, (0xD3 : Byte), "OUT"), (Instr.inp, 0xDB, "IN")], ∀ imm : Byte,
      let lo := shown s 1 imm
      Renders (row.1 imm) s [row.2.1, lo] (operandTail row.2.2 (byteOperand lo)))

/-- The sentinel line of each of the twelve undefined opcodes (decision D15; D2, D4, D7); the term for any other opcode,
which no byte decodes to, is refused (log entry 14). -/
def Obligations.UndefinedOpcodesShowTheSentinel : Prop :=
  (∀ s : State, s.Enabled → ∀ op ∈ undefinedSet, Renders (.undef op) s [op] "--".toList) ∧
    ∀ (s : State) (op : Byte), op ∉ undefinedSet → exec (.undef op) s = .refused .noRomEntry

/-! ## Refusals -/

/-- With no byte at the cursor every instruction is refused as the formatter is (41_formatter.md section 5, derived there);
the driver never makes that call, because no step is enabled there. That a step there is the refusal `stepNotEnabled` is the
model's choice (log entry 3). -/
def Obligations.NoByteIsRefused : Prop :=
  (∀ (d : Descriptor) (offset : Nat) (b : List Byte), format d offset 0 b = .error .noByte) ∧
    ∀ (i : Instr) (s : State), i.wellFormed = true → s.len ≤ s.cur →
      exec i s = .refused .noByte ∧ step s = .refused .stepNotEnabled

/-- A buffer longer than `BUF_MAX` is refused at the launch and by every step (decision D8; log entry 4), and a write to the
buffer during a pass always (decision D12; log entry 22). -/
def Obligations.LongBuffersAndBufferWritesAreRefused : Prop :=
  (∀ image : List Byte, Config.bufMax < image.length → launch image = .refused .bufferTooLong) ∧
    (∀ s : State, Config.bufMax < s.len → s.cur < s.len → step s = .refused .bufferTooLong) ∧
    ∀ (a : Nat) (v : Byte) (s : State), writeBuffer a v s = .refused .bufferWrite

/-! ## The parameters of a pass -/

/-- Any run of the machine is the run of a driver that has the ROM contents, read through any packing, the buffer's bytes and
`N` as arguments and only the cursor and the output as its state: these are what the run changes, and the buffer of the
last state is the first one's (10_state.md section 7, derived there; that the machine's own state holds the buffer is the
model's choice, log entry 1; refusals: log entries 3 and 4; the clamp: decision D7). -/
def Obligations.PassTakesItsParametersAsArguments : Prop :=
  ∀ (encoding : RomWordEncoding) (k : Nat) (s : State),
    core.run k s =
      (match passSteps (lookupPacked encoding) { mem := s.mem, len := s.len } k { cur := s.cur, out := s.out } with
        | .ok p => .next { mem := s.mem, len := s.len, cur := p.cur, out := p.out }
        | .error r => .refused r : Outcome)
end

