-- ==== Sys2Proof/Laws/Formatter.lean ====
section
/-!
SUPPORT. The laws of the text functions and of the formatter: lengths of the fields, and everything a call can answer.
-/

namespace Sys2Proof.Machine

@[simp] theorem bufMax_eq : Config.bufMax = 65536 := rfl

@[simp] theorem length_hex2 (c : Config.HexCase) (b : Byte) : (hex2 c b).length = Config.byteDigits := rfl

@[simp] theorem length_hex4 (c : Config.HexCase) (v : Word16) : (hex4 c v).length = Config.offsetDigits := rfl

@[simp] theorem length_spaces (n : Nat) : (spaces n).length = n := by simp [spaces]

@[simp] theorem length_padRight (s : Text) (w : Nat) : (padRight s w).length = max s.length w := by
  simp only [padRight, List.length_append, length_spaces]; omega

@[simp] theorem length_offsetField (offset : Nat) : (offsetField offset).length = 5 := rfl

@[simp] theorem length_byteSlot (b : Byte) : (byteSlot b).length = 3 := rfl

theorem length_flatMap_byteSlot (f : Nat → Byte) : ∀ l : List Nat,
    (l.flatMap fun i => byteSlot (f i)).length = 3 * l.length
  | [] => rfl
  | i :: l => by
    simp only [List.flatMap_cons, List.length_append, length_byteSlot, List.length_cons,
      length_flatMap_byteSlot f l]
    omega

@[simp] theorem length_rawByteField (length avail : Nat) (b : List Byte) :
    (rawByteField length avail b).length = 3 * length := by
  simp only [rawByteField, length_flatMap_byteSlot, List.length_range]

@[simp] theorem length_paddingField (length : Nat) : (paddingField length).length = 3 * (3 - length) := by
  simp only [paddingField, length_spaces]; rfl

/-- The opcode byte is always the real one (R121). -/
@[simp] theorem availableByte_zero {avail : Nat} (h : 0 < avail) (op : Byte) (rest : List Byte) :
    availableByte avail (op :: rest) 0 = op := by
  simp [availableByte, h]

theorem availableByte_congr {avail : Nat} {b b' : List Byte} {i : Nat}
    (h : i < avail → b.getD i 0 = b'.getD i 0) : availableByte avail b i = availableByte avail b' i := by
  unfold availableByte
  split
  · exact h ‹_›
  · rfl

/-- Everything a call of the formatter can answer, within its domain. -/
theorem format_eq_ok (d : Descriptor) {offset avail : Nat} (b : List Byte) (h : 0 < avail)
    (hmax : offset + avail ≤ Config.bufMax) :
    format d offset avail b =
      .ok { line := formatLine d offset avail b, totalLength := d.length, advance := min d.length avail } := by
  simp only [format, if_neg (Nat.pos_iff_ne_zero.mp h), if_neg (Nat.not_lt.mpr hmax)]

theorem format_no_byte (d : Descriptor) (offset : Nat) (b : List Byte) :
    format d offset 0 b = .error .noByte := rfl

theorem format_too_long (d : Descriptor) {offset avail : Nat} (b : List Byte) (h : 0 < avail)
    (hmax : Config.bufMax < offset + avail) : format d offset avail b = .error .bufferTooLong := by
  simp only [format, if_neg (Nat.pos_iff_ne_zero.mp h), if_pos hmax]

/-- Inversion: a call that answers was inside the domain, and this is what it answered. -/
theorem format_ok_cases {d : Descriptor} {offset avail : Nat} {b : List Byte} {f : Formatted}
    (h : format d offset avail b = .ok f) :
    0 < avail ∧ offset + avail ≤ Config.bufMax ∧ f.line = formatLine d offset avail b ∧
      f.totalLength = d.length ∧ f.advance = min d.length avail := by
  unfold format at h
  split at h
  · cases h
  · split at h
    · cases h
    · cases h
      exact ⟨by omega, by omega, rfl, rfl, rfl⟩

/-- The line depends on the bytes only through the bytes available (R121, R138). -/
theorem formatLine_congr {d : Descriptor} {offset avail : Nat} {b b' : List Byte}
    (h : ∀ i, i < avail → i < max d.length 3 → b.getD i 0 = b'.getD i 0) :
    formatLine d offset avail b = formatLine d offset avail b' := by
  have hraw : rawByteField d.length avail b = rawByteField d.length avail b' := by
    unfold rawByteField
    rw [List.flatMap_congr fun i hi => ?_]
    have hi' := List.mem_range.mp hi
    rw [availableByte_congr fun ha => h i ha (by omega)]
  unfold formatLine
  rw [hraw, availableByte_congr fun ha => h 1 ha (by omega), availableByte_congr fun ha => h 2 ha (by omega)]

/-- The operand of an entry that keeps the ROM's invariants reads `ob[1]` and `ob[2]` only where the class has them. -/
theorem operandText_congr {d : Descriptor} (hd : d.wellFormed = true) {lo hi lo' hi' : Byte}
    (h1 : 1 < d.length → lo = lo') (h2 : 2 < d.length → hi = hi') :
    operandText d lo hi = operandText d lo' hi' := by
  have hl : d.length = classLength d.operandClass := by
    simp only [Descriptor.wellFormed, Bool.and_eq_true, beq_iff_eq] at hd
    exact hd.1.1
  unfold operandText
  cases hc : d.operandClass <;> rw [hc] at hl <;> simp only [classLength] at hl
  case immediate8ToRegister => simp only [h1 (by omega)]
  case immediate8Standalone => simp only [h1 (by omega)]
  case immediate16ToRegister => simp only [h1 (by omega), h2 (by omega)]
  case immediate16Standalone => simp only [h1 (by omega), h2 (by omega)]

/-- The line of such an entry depends on the bytes only through those the instruction has and the buffer holds. -/
theorem formatLine_congr_of_wellFormed {d : Descriptor} (hd : d.wellFormed = true) {offset avail : Nat}
    {b b' : List Byte} (h : ∀ i, i < avail → i < d.length → b.getD i 0 = b'.getD i 0) :
    formatLine d offset avail b = formatLine d offset avail b' := by
  have hraw : rawByteField d.length avail b = rawByteField d.length avail b' := by
    unfold rawByteField
    rw [List.flatMap_congr fun i hi => ?_]
    rw [availableByte_congr fun ha => h i ha (List.mem_range.mp hi)]
  have htail : tailField d (availableByte avail b 1) (availableByte avail b 2) =
      tailField d (availableByte avail b' 1) (availableByte avail b' 2) := by
    unfold tailField
    rw [operandText_congr hd (fun hl => availableByte_congr fun ha => h 1 ha hl)
      (fun hl => availableByte_congr fun ha => h 2 ha hl)]
  unfold formatLine
  rw [hraw, htail]

end Sys2Proof.Machine
end

