-- ==== Sys2Proof/Laws/Memory.lean ====
section
/-!
SUPPORT. The laws of the byte memory: what a read gives after a write, and that every operation keeps the canonical
form and the bound on its offsets.
-/

namespace Sys2Proof.Machine

@[simp] theorem Memory.read_nil (a : Nat) : Memory.read [] a = Config.unlistedByte := rfl

theorem Memory.read_cons (k a : Nat) (v : Byte) (rest : Memory) :
    Memory.read ((k, v) :: rest) a = if k = a then v else Memory.read rest a := rfl

/-- A canonical memory whose offsets start at `lo` lists nothing below `lo`. -/
theorem Memory.read_of_wfFrom : ∀ (m : Memory) (lo a : Nat), m.wfFrom lo = true → a < lo →
    m.read a = Config.unlistedByte
  | [], _, _, _, _ => rfl
  | (k, v) :: rest, lo, a, h, ha => by
    simp only [Memory.wfFrom, Bool.and_eq_true, decide_eq_true_eq] at h
    have hk : k ≠ a := by omega
    rw [Memory.read_cons, if_neg hk]
    exact Memory.read_of_wfFrom rest (k + 1) a h.2 (by omega)

theorem Memory.wfFrom_mono : ∀ (m : Memory) {lo lo' : Nat}, lo' ≤ lo → m.wfFrom lo = true → m.wfFrom lo' = true
  | [], _, _, _, _ => rfl
  | (k, v) :: rest, lo, lo', hle, h => by
    simp only [Memory.wfFrom, Bool.and_eq_true, decide_eq_true_eq] at h ⊢
    exact ⟨⟨by omega, h.1.2⟩, h.2⟩

theorem Memory.wfFrom_consCell {a : Nat} {v : Byte} {rest : Memory} {lo : Nat} (hlo : lo ≤ a)
    (h : rest.wfFrom (a + 1) = true) : (Memory.consCell a v rest).wfFrom lo = true := by
  unfold Memory.consCell
  split
  · exact Memory.wfFrom_mono rest (by omega) h
  · simp [Memory.wfFrom, *]

theorem Memory.read_consCell_same {a : Nat} {v : Byte} {rest : Memory}
    (h : rest.read a = Config.unlistedByte) : (Memory.consCell a v rest).read a = v := by
  unfold Memory.consCell
  split
  · rw [h]; exact Eq.symm ‹_›
  · simp [Memory.read_cons]

theorem Memory.read_consCell_other {a b : Nat} {v : Byte} {rest : Memory} (h : a ≠ b) :
    (Memory.consCell a v rest).read b = rest.read b := by
  unfold Memory.consCell
  split
  · rfl
  · simp [Memory.read_cons, h]

/-- A write keeps the canonical form. -/
theorem Memory.wfFrom_write : ∀ (m : Memory) (lo a : Nat) (v : Byte), lo ≤ a → m.wfFrom lo = true →
    (m.write a v).wfFrom lo = true
  | [], _, _, _, hlo, _ => Memory.wfFrom_consCell hlo rfl
  | (k, w) :: rest, lo, a, v, hlo, h => by
    have h' := h
    simp only [Memory.wfFrom, Bool.and_eq_true, decide_eq_true_eq] at h'
    unfold Memory.write
    split
    · refine Memory.wfFrom_consCell hlo ?_
      simp only [Memory.wfFrom, Bool.and_eq_true, decide_eq_true_eq]
      exact ⟨⟨by omega, h'.1.2⟩, h'.2⟩
    · split
      · subst_vars
        exact Memory.wfFrom_consCell hlo h'.2
      · simp only [Memory.wfFrom, Bool.and_eq_true, decide_eq_true_eq]
        exact ⟨h'.1, Memory.wfFrom_write rest (k + 1) a v (by omega) h'.2⟩

theorem Memory.wf_write {m : Memory} (a : Nat) (v : Byte) (h : m.wf = true) : (m.write a v).wf = true :=
  Memory.wfFrom_write m 0 a v (Nat.zero_le a) h

theorem Memory.wf_writeBytes : ∀ (bytes : List Byte) (m : Memory) (a : Nat), m.wf = true →
    (m.writeBytes a bytes).wf = true
  | [], _, _, h => h
  | v :: vs, m, a, h => Memory.wf_writeBytes vs (m.write a v) (a + 1) (Memory.wf_write a v h)

/-- Read after write, at the offset written. -/
theorem Memory.read_write_same : ∀ (m : Memory) (lo a : Nat) (v : Byte), m.wfFrom lo = true →
    (m.write a v).read a = v
  | [], _, _, _, _ => Memory.read_consCell_same rfl
  | (k, w) :: rest, lo, a, v, h => by
    have h' := h
    simp only [Memory.wfFrom, Bool.and_eq_true, decide_eq_true_eq] at h'
    unfold Memory.write
    split
    · refine Memory.read_consCell_same (Memory.read_of_wfFrom _ k a ?_ (by omega))
      simp only [Memory.wfFrom, Bool.and_eq_true, decide_eq_true_eq]
      exact ⟨⟨by omega, h'.1.2⟩, h'.2⟩
    · split
      · subst_vars
        exact Memory.read_consCell_same (Memory.read_of_wfFrom rest (a + 1) a h'.2 (by omega))
      · rw [Memory.read_cons, if_neg (by omega)]
        exact Memory.read_write_same rest (k + 1) a v h'.2

/-- Read after write, at any other offset. -/
theorem Memory.read_write_other : ∀ (m : Memory) {a b : Nat} (v : Byte), a ≠ b → (m.write a v).read b = m.read b
  | [], _, _, _, h => Memory.read_consCell_other h
  | (k, w) :: rest, a, b, v, h => by
    unfold Memory.write
    split
    · exact Memory.read_consCell_other h
    · split
      · rw [Memory.read_consCell_other h, Memory.read_cons, if_neg (by omega)]
      · rw [Memory.read_cons, Memory.read_cons, Memory.read_write_other rest v h]

/-- Offsets below the written block read as before. -/
theorem Memory.read_writeBytes_below : ∀ (bytes : List Byte) (m : Memory) (a b : Nat), b < a →
    (m.writeBytes a bytes).read b = m.read b
  | [], _, _, _, _ => rfl
  | v :: vs, m, a, b, h => by
    unfold Memory.writeBytes
    rw [Memory.read_writeBytes_below vs _ (a + 1) b (by omega), Memory.read_write_other m v (by omega)]

/-- Offsets above the written block read as before. -/
theorem Memory.read_writeBytes_above : ∀ (bytes : List Byte) (m : Memory) (a b : Nat), a + bytes.length ≤ b →
    (m.writeBytes a bytes).read b = m.read b
  | [], _, _, _, _ => rfl
  | v :: vs, m, a, b, h => by
    simp only [List.length_cons] at h
    unfold Memory.writeBytes
    rw [Memory.read_writeBytes_above vs _ (a + 1) b (by omega), Memory.read_write_other m v (by omega)]

/-- Every byte of the written block reads back. -/
theorem Memory.read_writeBytes_inside : ∀ (bytes : List Byte) (m : Memory) (a j : Nat), m.wf = true →
    (h : j < bytes.length) → (m.writeBytes a bytes).read (a + j) = bytes[j]
  | [], _, _, _, _, h => absurd h (Nat.not_lt_zero _)
  | v :: vs, m, a, 0, hm, _ => by
    unfold Memory.writeBytes
    rw [Memory.read_writeBytes_below vs _ (a + 1) (a + 0) (by omega)]
    exact Memory.read_write_same m 0 a v hm
  | v :: vs, m, a, j + 1, hm, h => by
    unfold Memory.writeBytes
    rw [show a + (j + 1) = (a + 1) + j by omega]
    exact Memory.read_writeBytes_inside vs _ (a + 1) j (Memory.wf_write a v hm) (by simpa using h)

theorem Memory.below_iff (m : Memory) (n : Nat) : m.below n = true ↔ ∀ cell ∈ m, cell.1 < n := by
  simp [Memory.below]

theorem Memory.mem_consCell {a : Nat} {v : Byte} {rest : Memory} {cell : Host.Cell}
    (h : cell ∈ Memory.consCell a v rest) : cell = (a, v) ∨ cell ∈ rest := by
  unfold Memory.consCell at h
  split at h
  · exact .inr h
  · simpa using h

theorem Memory.mem_write : ∀ (m : Memory) (a : Nat) (v : Byte) {cell : Host.Cell}, cell ∈ m.write a v →
    cell = (a, v) ∨ cell ∈ m
  | [], _, _, _, h => Memory.mem_consCell h
  | (k, w) :: rest, a, v, cell, h => by
    unfold Memory.write at h
    split at h
    · exact Memory.mem_consCell h
    · split at h
      · exact (Memory.mem_consCell h).imp_right (List.mem_cons_of_mem _)
      · rcases List.mem_cons.mp h with rfl | h
        · exact .inr (List.mem_cons_self ..)
        · exact (Memory.mem_write rest a v h).imp_right (List.mem_cons_of_mem _)

/-- A write below `n` keeps every offset below `n`. -/
theorem Memory.below_write {m : Memory} {n a : Nat} (v : Byte) (h : m.below n = true) (ha : a < n) :
    (m.write a v).below n = true := by
  rw [Memory.below_iff] at h ⊢
  intro cell hc
  rcases Memory.mem_write m a v hc with rfl | hc
  · exact ha
  · exact h cell hc

theorem Memory.below_writeBytes : ∀ (bytes : List Byte) (m : Memory) (n a : Nat), m.below n = true →
    a + bytes.length ≤ n → (m.writeBytes a bytes).below n = true
  | [], _, _, _, h, _ => h
  | v :: vs, m, n, a, h, hn => by
    simp only [List.length_cons] at hn
    exact Memory.below_writeBytes vs (m.write a v) n (a + 1) (Memory.below_write v h (by omega)) (by omega)

theorem Memory.below_mono {m : Memory} {n n' : Nat} (hle : n ≤ n') (h : m.below n = true) : m.below n' = true := by
  rw [Memory.below_iff] at h ⊢
  exact fun cell hc => Nat.lt_of_lt_of_le (h cell hc) hle

/-- Two canonical memories that read the same everywhere are equal, so equal buffers are equal data. -/
theorem Memory.ext_of_wfFrom : ∀ (m m' : Memory) (lo : Nat), m.wfFrom lo = true → m'.wfFrom lo = true →
    (∀ a, m.read a = m'.read a) → m = m'
  | [], [], _, _, _, _ => rfl
  | [], (k, v) :: rest, lo, _, h', hr => by
    simp only [Memory.wfFrom, Bool.and_eq_true, decide_eq_true_eq] at h'
    have := hr k
    simp only [Memory.read_nil, Memory.read_cons, if_true] at this
    exact absurd this.symm h'.1.2
  | (k, v) :: rest, [], lo, h, _, hr => by
    simp only [Memory.wfFrom, Bool.and_eq_true, decide_eq_true_eq] at h
    have := hr k
    simp only [Memory.read_nil, Memory.read_cons, if_true] at this
    exact absurd this h.1.2
  | (k, v) :: rest, (k', v') :: rest', lo, h, h', hr => by
    have hw := h; have hw' := h'
    simp only [Memory.wfFrom, Bool.and_eq_true, decide_eq_true_eq] at h h'
    have hk : k = k' := by
      by_contra hne
      rcases Nat.lt_or_gt_of_ne hne with hlt | hgt
      · have h1 := hr k
        rw [Memory.read_cons, if_pos rfl, Memory.read_cons, if_neg (by omega),
          Memory.read_of_wfFrom rest' (k' + 1) k h'.2 (by omega)] at h1
        exact h.1.2 h1
      · have h1 := hr k'
        rw [Memory.read_cons, if_neg (by omega), Memory.read_cons, if_pos rfl,
          Memory.read_of_wfFrom rest (k + 1) k' h.2 (by omega)] at h1
        exact h'.1.2 h1.symm
    subst hk
    have hv : v = v' := by simpa [Memory.read_cons] using hr k
    subst hv
    refine congrArg _ (Memory.ext_of_wfFrom rest rest' (k + 1) h.2 h'.2 fun a => ?_)
    by_cases ha : k = a
    · subst ha
      rw [Memory.read_of_wfFrom rest (k + 1) k h.2 (by omega), Memory.read_of_wfFrom rest' (k + 1) k h'.2 (by omega)]
    · simpa [Memory.read_cons, ha] using hr a

end Sys2Proof.Machine
end

