-- ==== Sys2Proof/Laws/State.lean ====
section
/-!
SUPPORT. One lemma for each field under each update of the state, so that no proof unfolds a record update.
-/

namespace Sys2Proof.Machine

@[simp] theorem State.buffer_mem (s : State) : s.buffer.mem = s.mem := rfl
@[simp] theorem State.buffer_len (s : State) : s.buffer.len = s.len := rfl
@[simp] theorem State.progress_cur (s : State) : s.progress.cur = s.cur := rfl
@[simp] theorem State.progress_out (s : State) : s.progress.out = s.out := rfl

@[simp] theorem State.ofPass_mem (buffer : Buffer) (p : Progress) : (State.ofPass buffer p).mem = buffer.mem := rfl
@[simp] theorem State.ofPass_len (buffer : Buffer) (p : Progress) : (State.ofPass buffer p).len = buffer.len := rfl
@[simp] theorem State.ofPass_cur (buffer : Buffer) (p : Progress) : (State.ofPass buffer p).cur = p.cur := rfl
@[simp] theorem State.ofPass_out (buffer : Buffer) (p : Progress) : (State.ofPass buffer p).out = p.out := rfl
@[simp] theorem State.ofPass_buffer (buffer : Buffer) (p : Progress) : (State.ofPass buffer p).buffer = buffer := rfl
@[simp] theorem State.ofPass_progress (buffer : Buffer) (p : Progress) : (State.ofPass buffer p).progress = p := rfl
@[simp] theorem State.ofPass_self (s : State) : State.ofPass s.buffer s.progress = s := rfl

@[simp] theorem State.resume_ok (s : State) (p : Progress) : s.resume (.ok p) = .next (State.ofPass s.buffer p) := rfl
@[simp] theorem State.resume_error (s : State) (r : Refusal) : s.resume (.error r) = .refused r := rfl

@[simp] theorem Progress.emit_cur (p : Progress) (line : Line) : (p.emit line).cur = p.cur := rfl
@[simp] theorem Progress.emit_out (p : Progress) (line : Line) : (p.emit line).out = p.out ++ [line] := rfl
@[simp] theorem Progress.advanceBy_cur (p : Progress) (n : Nat) : (p.advanceBy n).cur = p.cur + n := rfl
@[simp] theorem Progress.advanceBy_out (p : Progress) (n : Nat) : (p.advanceBy n).out = p.out := rfl

@[simp] theorem State.restart_mem (s : State) : s.restart.mem = s.mem := rfl
@[simp] theorem State.restart_len (s : State) : s.restart.len = s.len := rfl
@[simp] theorem State.restart_cur (s : State) : s.restart.cur = 0 := rfl
@[simp] theorem State.restart_out (s : State) : s.restart.out = [] := rfl

@[simp] theorem placeBytes_mem (base : Nat) (bytes : List Byte) (s : State) :
    (placeBytes base bytes s).mem = s.mem.writeBytes base bytes := rfl
@[simp] theorem placeBytes_len (base : Nat) (bytes : List Byte) (s : State) :
    (placeBytes base bytes s).len = min Config.bufMax (max s.len (base + bytes.length)) := rfl
@[simp] theorem placeBytes_cur (base : Nat) (bytes : List Byte) (s : State) :
    (placeBytes base bytes s).cur = base := rfl
@[simp] theorem placeBytes_out (base : Nat) (bytes : List Byte) (s : State) :
    (placeBytes base bytes s).out = s.out := rfl

@[simp] theorem State.reset_mem : State.reset.mem = [] := rfl
@[simp] theorem State.reset_len : State.reset.len = 0 := rfl
@[simp] theorem State.reset_cur : State.reset.cur = 0 := rfl
@[simp] theorem State.reset_out : State.reset.out = [] := rfl

theorem State.readByte_eq (s : State) (a : Nat) :
    s.readByte a = if a < s.len then some (s.mem.read a) else none := rfl

/-- A byte is read at exactly the offsets below the buffer's length (R41). -/
theorem State.readByte_eq_some_iff (s : State) (a : Nat) (v : Byte) :
    s.readByte a = some v ↔ a < s.len ∧ s.mem.read a = v := by
  rw [State.readByte_eq]
  split <;> simp [*]

theorem State.readByte_of_lt {s : State} {a : Nat} (h : a < s.len) : s.readByte a = some (s.mem.read a) := if_pos h

theorem State.readByte_of_le {s : State} {a : Nat} (h : s.len ≤ a) : s.readByte a = none := if_neg (Nat.not_lt.mpr h)

end Sys2Proof.Machine
end

