-- ==== Sys2Proof/Laws/Ops.lean ====
section
/-!
SUPPORT. One lemma for each shared operation that says everything it can do: `State.resume`, `runEntry`, `launch`,
`fetchInstr`, `step`.
-/

namespace Sys2Proof.Machine

@[simp] theorem Buffer.avail_eq (buffer : Buffer) (cur : Nat) : buffer.avail cur = buffer.len - cur := rfl

/-- Inversion of `State.resume`: a next state is a pass over the same buffer. -/
theorem State.resume_cases {s t : State} {answer : Except Refusal Progress} (h : s.resume answer = .next t) :
    ∃ p, answer = .ok p ∧ t = State.ofPass s.buffer p := by
  cases answer with
  | ok p => exact ⟨p, rfl, (Host.Outcome.next.inj h).symm⟩
  | error r => cases h

/-- Where a step is enabled, executing an entry emits the formatted line and advances the cursor; nothing else. -/
theorem runEntry_of_enabled {s : State} (d : Descriptor) (bytes : List Byte) (h : s.Enabled) :
    runEntry d bytes s =
      .next { mem := s.mem, len := s.len, cur := s.cur + min d.length (s.len - s.cur),
              out := s.out ++ [formatLine d s.cur (s.len - s.cur) bytes] } := by
  have hf := format_eq_ok d bytes (offset := s.cur) (avail := s.len - s.cur) (by omega) (by omega)
  simp [runEntry, renderEntry, hf, State.ofPass]

/-- With the cursor at or past the end there is no byte to format. -/
theorem runEntry_of_no_byte {s : State} (d : Descriptor) (bytes : List Byte) (h : s.len ≤ s.cur) :
    runEntry d bytes s = .refused .noByte := by
  simp [runEntry, renderEntry, Nat.sub_eq_zero_of_le h, format_no_byte]

/-- In a buffer longer than `BUF_MAX` nothing is formatted. -/
theorem runEntry_of_too_long {s : State} (d : Descriptor) (bytes : List Byte) (h : s.cur < s.len)
    (hmax : Config.bufMax < s.len) : runEntry d bytes s = .refused .bufferTooLong := by
  have hf := format_too_long d bytes (offset := s.cur) (avail := s.len - s.cur) (by omega) (by omega)
  simp [runEntry, renderEntry, hf]

/-- Inversion of `runEntry`: an answer means the step was enabled, and this is the next state. -/
theorem runEntry_cases {d : Descriptor} {bytes : List Byte} {s t : State} (h : runEntry d bytes s = .next t) :
    s.Enabled ∧
      t = { mem := s.mem, len := s.len, cur := s.cur + min d.length (s.len - s.cur),
            out := s.out ++ [formatLine d s.cur (s.len - s.cur) bytes] } := by
  by_cases hlt : s.cur < s.len
  · by_cases hmax : s.len ≤ Config.bufMax
    · have he : s.Enabled := ⟨hlt, hmax⟩
      rw [runEntry_of_enabled d bytes he] at h
      cases h
      exact ⟨he, rfl⟩
    · rw [runEntry_of_too_long d bytes hlt (by omega)] at h
      cases h
  · rw [runEntry_of_no_byte d bytes (by omega)] at h
    cases h

/-- A launch of an admitted image: its bytes, the cursor at 0, no line. -/
theorem launch_of_le {image : List Byte} (h : image.length ≤ Config.bufMax) :
    launch image = .next { mem := Memory.writeBytes [] 0 image, len := image.length, cur := 0, out := [] } := by
  simp only [launch, if_neg (Nat.not_lt.mpr h)]
  rfl

theorem launch_of_gt {image : List Byte} (h : Config.bufMax < image.length) :
    launch image = .refused .bufferTooLong := by
  simp only [launch, if_pos h]

/-- The operand bytes of a fetch are the buffer's bytes after the cursor, in order. -/
theorem operandReads_eq (s : State) (length : Nat) :
    operandReads s.buffer s.cur length =
      (List.range' 1 (min length (s.len - s.cur) - 1)).map fun i => s.mem.read (s.cur + i) := by
  unfold operandReads
  rw [Buffer.avail_eq, State.buffer_len, ← List.filterMap_eq_map]
  refine List.filterMap_congr fun i hi => ?_
  rw [List.mem_range'_1] at hi
  exact State.readByte_of_lt (by omega)

/-- What a step fetches when the cursor is inside the buffer. -/
theorem fetchBytes_of_lt {s : State} (h : s.cur < s.len) :
    fetchBytes s = s.mem.read s.cur :: operandReads s.buffer s.cur (lookup (s.mem.read s.cur)).length := by
  unfold fetchBytes
  rw [State.readByte_of_lt h]

theorem fetchInstr_of_lt {s : State} (h : s.cur < s.len) :
    fetchInstr s = .ok (decodeOpcode (s.mem.read s.cur) ((fetchBytes s).getD 1 0) ((fetchBytes s).getD 2 0)) := by
  unfold fetchInstr
  rw [if_pos h, fetchBytes_of_lt h]
  rfl

theorem fetchInstr_of_le {s : State} (h : s.len ≤ s.cur) : fetchInstr s = .error .stepNotEnabled := by
  simp only [fetchInstr, if_neg (Nat.not_lt.mpr h)]

/-- A step with the cursor inside the buffer executes the instruction its bytes decode to. -/
theorem step_of_lt {s : State} (h : s.cur < s.len) :
    step s = exec (decodeOpcode (s.mem.read s.cur) ((fetchBytes s).getD 1 0) ((fetchBytes s).getD 2 0)) s := by
  unfold step
  rw [fetchInstr_of_lt h]

theorem step_of_le {s : State} (h : s.len ≤ s.cur) : step s = .refused .stepNotEnabled := by
  unfold step
  rw [fetchInstr_of_le h]

/-- An iteration of the driver with the cursor inside the buffer formats the entry of the opcode there. -/
theorem driverStep_of_lt {s : State} (h : s.cur < s.len) :
    driverStep s = runEntry (lookup (s.mem.read s.cur)) (fetchBytes s) s := by
  have hread : s.buffer.readByte s.cur = some (s.mem.read s.cur) := State.readByte_of_lt h
  simp only [driverStep, passStep, State.progress_cur, State.buffer_len, if_pos h, hread, fetchBytes_of_lt h]
  rfl

theorem driverStep_of_le {s : State} (h : s.len ≤ s.cur) : driverStep s = .refused .stepNotEnabled := by
  have hstep : passStep lookup s.buffer s.progress = .error .stepNotEnabled := if_neg (Nat.not_lt.mpr h)
  rw [driverStep, hstep, State.resume_error]

/-- A run of `k + 1` iterations is an iteration and a run of `k`. -/
theorem passSteps_succ (contents : Byte → Descriptor) (buffer : Buffer) (k : Nat) (p : Progress) :
    passSteps contents buffer (k + 1) p =
      (match passStep contents buffer p with
        | .ok q => passSteps contents buffer k q
        | .error r => .error r) := rfl

/-- A run of `k + 1` steps is a step and a run of `k`. -/
theorem run_succ (k : Nat) (s : State) :
    core.run (k + 1) s =
      (match step s with
        | .next t => core.run k t
        | .fault r => .fault r
        | .refused r => .refused r) := by
  have hs : core.step s = step s := rfl
  cases h : step s <;> simp only [Host.Core.run, hs, h]

theorem run_zero (s : State) : core.run 0 s = .next s := rfl

end Sys2Proof.Machine
end

