-- ==== Sys2Proof/Laws/Exec.lean ====
section
/-!
SUPPORT. What executing an instruction can do, said once: `exec i` is `runEntry` of the instruction's entry and bytes.
-/

namespace Sys2Proof.Machine

/-- The ROM entry each meaning names, gathered for the lemmas below; that it is the ROM's own is a statement to prove. -/
def entryOf : Instr → Descriptor
  | .nop => entryNone "NOP"
  | .lxi pair _ => entryImm16ToRegister "LXI" pair.name
  | .stax r => entryRegister "STAX" r.name
  | .inx r => entryRegister "INX" r.name
  | .inr r => entryRegister "INR" r.name
  | .dcr r => entryRegister "DCR" r.name
  | .mvi r _ => entryImm8ToRegister "MVI" r.name
  | .rlc => entryNone "RLC"
  | .dad r => entryRegister "DAD" r.name
  | .ldax r => entryRegister "LDAX" r.name
  | .dcx r => entryRegister "DCX" r.name
  | .rrc => entryNone "RRC"
  | .ral => entryNone "RAL"
  | .rar => entryNone "RAR"
  | .shld _ => entryImm16 "SHLD"
  | .daa => entryNone "DAA"
  | .lhld _ => entryImm16 "LHLD"
  | .cma => entryNone "CMA"
  | .sta _ => entryImm16 "STA"
  | .stc => entryNone "STC"
  | .lda _ => entryImm16 "LDA"
  | .cmc => entryNone "CMC"
  | .mov dst src => entryRegisterPair "MOV" dst.name src.name
  | .hlt => entryNone "HLT"
  | .add r => entryRegister "ADD" r.name
  | .adc r => entryRegister "ADC" r.name
  | .sub r => entryRegister "SUB" r.name
  | .sbb r => entryRegister "SBB" r.name
  | .ana r => entryRegister "ANA" r.name
  | .xra r => entryRegister "XRA" r.name
  | .ora r => entryRegister "ORA" r.name
  | .cmp r => entryRegister "CMP" r.name
  | .rnz => entryNone "RNZ"
  | .pop r => entryRegister "POP" r.name
  | .jnz _ => entryImm16 "JNZ"
  | .jmp _ => entryImm16 "JMP"
  | .cnz _ => entryImm16 "CNZ"
  | .push r => entryRegister "PUSH" r.name
  | .adi _ => entryImm8 "ADI"
  | .rst n => entryRegister "RST" (Config.rstOperand n)
  | .rz => entryNone "RZ"
  | .ret => entryNone "RET"
  | .jz _ => entryImm16 "JZ"
  | .cz _ => entryImm16 "CZ"
  | .call _ => entryImm16 "CALL"
  | .aci _ => entryImm8 "ACI"
  | .rnc => entryNone "RNC"
  | .jnc _ => entryImm16 "JNC"
  | .outp _ => entryImm8 "OUT"
  | .cnc _ => entryImm16 "CNC"
  | .sui _ => entryImm8 "SUI"
  | .rc => entryNone "RC"
  | .jc _ => entryImm16 "JC"
  | .inp _ => entryImm8 "IN"
  | .cc _ => entryImm16 "CC"
  | .sbi _ => entryImm8 "SBI"
  | .rpo => entryNone "RPO"
  | .jpo _ => entryImm16 "JPO"
  | .xthl => entryNone "XTHL"
  | .cpo _ => entryImm16 "CPO"
  | .ani _ => entryImm8 "ANI"
  | .rpe => entryNone "RPE"
  | .pchl => entryNone "PCHL"
  | .jpe _ => entryImm16 "JPE"
  | .xchg => entryNone "XCHG"
  | .cpe _ => entryImm16 "CPE"
  | .xri _ => entryImm8 "XRI"
  | .rp => entryNone "RP"
  | .jp _ => entryImm16 "JP"
  | .di => entryNone "DI"
  | .cp _ => entryImm16 "CP"
  | .ori _ => entryImm8 "ORI"
  | .rm => entryNone "RM"
  | .sphl => entryNone "SPHL"
  | .jm _ => entryImm16 "JM"
  | .ei => entryNone "EI"
  | .cm _ => entryImm16 "CM"
  | .cpi _ => entryImm8 "CPI"
  | .undef _ => sentinel

theorem exec_eq_runEntry (i : Instr) (s : State) (h : i.wellFormed = true) :
    exec i s = runEntry (entryOf i) (encode i) s := by
  cases i with
  | mov dst src => exact if_pos h
  | undef op => exact if_pos h
  | _ => rfl

/-- Inversion of `exec`: an answer comes from `runEntry`, also for a term that is no row of the map. -/
theorem exec_cases {i : Instr} {s t : State} (h : exec i s = .next t) :
    i.wellFormed = true ∧ runEntry (entryOf i) (encode i) s = .next t := by
  by_cases hw : i.wellFormed = true
  · exact ⟨hw, exec_eq_runEntry i s hw ▸ h⟩
  · cases i with
    | mov dst src => exact absurd ((if_neg hw).symm.trans h) (by simp)
    | undef op => exact absurd ((if_neg hw).symm.trans h) (by simp)
    | _ => exact absurd rfl hw

end Sys2Proof.Machine
end

