-- ==== Sys2Proof/Laws/Rom.lean ====
section
/-!
SUPPORT. The laws of the decoder ROM: what holds of all 256 entries, and that any packing of them is read as they are.
-/

namespace Sys2Proof.Machine

/-- Every entry keeps the length and register-field invariants (R102, R103). -/
theorem lookup_wellFormed (op : Byte) : (lookup op).wellFormed = true := by
  revert op; decide

theorem lookup_length (op : Byte) : (lookup op).length = classLength (lookup op).operandClass := by
  have h := lookup_wellFormed op
  simp only [Descriptor.wellFormed, Bool.and_eq_true, beq_iff_eq] at h
  exact h.1.1

theorem lookup_length_bounds (op : Byte) : 1 ≤ (lookup op).length ∧ (lookup op).length ≤ 3 := by
  rw [lookup_length]
  cases (lookup op).operandClass <;> decide

/-- The opcode map and the ROM are one map: an opcode's instruction names the ROM's own entry (R64, R106). -/
theorem entryOf_opcodeMap (op : Byte) : entryOf (opcodeMap[op.toNat]'(opcode_in_map op)) = lookup op := by
  revert op; decide

/-- Reading a packed ROM word gives the entry, whatever the packing (R109). -/
theorem lookupPacked_eq (encoding : RomWordEncoding) (op : Byte) : lookupPacked encoding op = lookup op :=
  encoding.unpack_pack _

/-- A packing exists, so a statement about every packing says something. -/
theorem romWordEncoding_exists : Nonempty RomWordEncoding := by
  have hclass : Function.Injective (OperandClass.ctorIdx) := by
    intro a b h; cases a <;> cases b <;> first | rfl | cases h
  have : Countable Char := (Function.LeftInverse.injective (g := Char.ofNat) Char.ofNat_toNat).countable
  have hinj : Function.Injective fun d : Descriptor =>
      (d.mnemonic, d.operandClass.ctorIdx, d.length, d.register1, d.register2) := by
    rintro ⟨m, c, n, r, r'⟩ ⟨m', c', n', q, q'⟩ h
    simp only [Prod.mk.injEq] at h
    obtain ⟨rfl, h, rfl, rfl, rfl⟩ := h
    rw [hclass h]
  have : Countable Descriptor := hinj.countable
  have : Nonempty Descriptor := ⟨sentinel⟩
  obtain ⟨pack, hpack⟩ := exists_injective_nat Descriptor
  exact ⟨⟨pack, Function.invFun pack, Function.leftInverse_invFun hpack⟩⟩

end Sys2Proof.Machine
end

