-- ==== Sys2Proof/Laws/Decode.lean ====
section
/-!
SUPPORT. The laws of the decoder's and encoder's parts: taking a 16-bit immediate apart and putting it together, filling
an instruction's immediate in, and the opcode of a map entry.
-/

namespace Sys2Proof

open Sys2Proof.Machine

theorem toNat_imm16 (lo hi : Byte) : (imm16 lo hi).toNat = hi.toNat * 256 + lo.toNat := by
  have := lo.isLt
  rw [imm16, BitVec.toNat_append, ← Nat.shiftLeft_add_eq_or_of_lt (by omega), Nat.shiftLeft_eq]

theorem imm16_bytes (imm : Word16) : imm16 (imm.extractLsb' 0 8) (imm.extractLsb' 8 8) = imm := by
  apply BitVec.eq_of_toNat_eq
  have := imm.isLt
  rw [toNat_imm16, BitVec.extractLsb'_toNat, BitVec.extractLsb'_toNat]
  simp only [Nat.shiftRight_eq_div_pow]
  omega

theorem imm16_lowByte (lo hi : Byte) : (imm16 lo hi).extractLsb' 0 8 = lo := by
  apply BitVec.eq_of_toNat_eq
  have := lo.isLt
  rw [BitVec.extractLsb'_toNat, toNat_imm16]
  simp only [Nat.shiftRight_eq_div_pow]
  omega

theorem imm16_highByte (lo hi : Byte) : (imm16 lo hi).extractLsb' 8 8 = hi := by
  apply BitVec.eq_of_toNat_eq
  have := lo.isLt
  have := hi.isLt
  rw [BitVec.extractLsb'_toNat, toNat_imm16]
  simp only [Nat.shiftRight_eq_div_pow]
  omega

/-- A map entry's opcode, in the encoder's words, is the entry's place in the map. -/
theorem opcodeOf_opcodeMap (op : Byte) : opcodeOf (opcodeMap[op.toNat]'(opcode_in_map op)) = op := by
  revert op; decide

theorem wellFormed_opcodeMap (op : Byte) : (opcodeMap[op.toNat]'(opcode_in_map op)).wellFormed = true := by
  revert op; decide

theorem entryOf_withOperand (lo hi : Byte) (i : Instr) : entryOf (i.withOperand lo hi) = entryOf i := by
  cases i <;> rfl

theorem wellFormed_withOperand (lo hi : Byte) (i : Instr) : (i.withOperand lo hi).wellFormed = i.wellFormed := by
  cases i <;> rfl

/-- Filling in an immediate uses only the operand bytes the instruction's length has room for. -/
theorem withOperand_congr {lo hi lo' hi' : Byte} (i : Instr) (h1 : 2 ≤ (entryOf i).length → lo = lo')
    (h2 : 3 ≤ (entryOf i).length → hi = hi') : i.withOperand lo hi = i.withOperand lo' hi' := by
  cases i <;> first
    | rfl
    | (simp only [Instr.withOperand]; rw [h1 (Nat.le_of_ble_eq_true rfl)]; done)
    | (simp only [Instr.withOperand]; rw [h1 (Nat.le_of_ble_eq_true rfl), h2 (Nat.le_of_ble_eq_true rfl)])

end Sys2Proof
end

