-- ==== Sys2Proof/Laws/PerInstr.lean ====
section
/-!
SUPPORT. The law made per instruction: an instruction has as many bytes as the entry its meaning names, and that entry
keeps the ROM's length and register-field invariants.
-/

namespace Sys2Proof.Laws.EncodedLength

open Sys2Proof.Machine

/-- The encoding and the entry agree in length, and the entry is well formed (R60, R61, R102, R103). -/
def Statement (i : Instr) : Prop :=
  (encode i).length = (entryOf i).length ∧ (entryOf i).wellFormed = true

theorem nop : Statement (.nop) := ⟨rfl, rfl⟩
theorem lxi (pair : RegPair) (imm : Word16) : Statement (.lxi pair imm) := ⟨rfl, rfl⟩
theorem stax (r : IndexPair) : Statement (.stax r) := ⟨rfl, rfl⟩
theorem inx (r : RegPair) : Statement (.inx r) := ⟨rfl, rfl⟩
theorem inr (r : Reg8) : Statement (.inr r) := ⟨rfl, rfl⟩
theorem dcr (r : Reg8) : Statement (.dcr r) := ⟨rfl, rfl⟩
theorem mvi (r : Reg8) (imm : Byte) : Statement (.mvi r imm) := ⟨rfl, rfl⟩
theorem rlc : Statement (.rlc) := ⟨rfl, rfl⟩
theorem dad (r : RegPair) : Statement (.dad r) := ⟨rfl, rfl⟩
theorem ldax (r : IndexPair) : Statement (.ldax r) := ⟨rfl, rfl⟩
theorem dcx (r : RegPair) : Statement (.dcx r) := ⟨rfl, rfl⟩
theorem rrc : Statement (.rrc) := ⟨rfl, rfl⟩
theorem ral : Statement (.ral) := ⟨rfl, rfl⟩
theorem rar : Statement (.rar) := ⟨rfl, rfl⟩
theorem shld (imm : Word16) : Statement (.shld imm) := ⟨rfl, rfl⟩
theorem daa : Statement (.daa) := ⟨rfl, rfl⟩
theorem lhld (imm : Word16) : Statement (.lhld imm) := ⟨rfl, rfl⟩
theorem cma : Statement (.cma) := ⟨rfl, rfl⟩
theorem sta (imm : Word16) : Statement (.sta imm) := ⟨rfl, rfl⟩
theorem stc : Statement (.stc) := ⟨rfl, rfl⟩
theorem lda (imm : Word16) : Statement (.lda imm) := ⟨rfl, rfl⟩
theorem cmc : Statement (.cmc) := ⟨rfl, rfl⟩
theorem mov (dst : Reg8) (src : Reg8) : Statement (.mov dst src) := ⟨rfl, rfl⟩
theorem hlt : Statement (.hlt) := ⟨rfl, rfl⟩
theorem add (r : Reg8) : Statement (.add r) := ⟨rfl, rfl⟩
theorem adc (r : Reg8) : Statement (.adc r) := ⟨rfl, rfl⟩
theorem sub (r : Reg8) : Statement (.sub r) := ⟨rfl, rfl⟩
theorem sbb (r : Reg8) : Statement (.sbb r) := ⟨rfl, rfl⟩
theorem ana (r : Reg8) : Statement (.ana r) := ⟨rfl, rfl⟩
theorem xra (r : Reg8) : Statement (.xra r) := ⟨rfl, rfl⟩
theorem ora (r : Reg8) : Statement (.ora r) := ⟨rfl, rfl⟩
theorem cmp (r : Reg8) : Statement (.cmp r) := ⟨rfl, rfl⟩
theorem rnz : Statement (.rnz) := ⟨rfl, rfl⟩
theorem pop (r : StackPair) : Statement (.pop r) := ⟨rfl, rfl⟩
theorem jnz (imm : Word16) : Statement (.jnz imm) := ⟨rfl, rfl⟩
theorem jmp (imm : Word16) : Statement (.jmp imm) := ⟨rfl, rfl⟩
theorem cnz (imm : Word16) : Statement (.cnz imm) := ⟨rfl, rfl⟩
theorem push (r : StackPair) : Statement (.push r) := ⟨rfl, rfl⟩
theorem adi (imm : Byte) : Statement (.adi imm) := ⟨rfl, rfl⟩
theorem rst (n : Fin 8) : Statement (.rst n) := ⟨rfl, rfl⟩
theorem rz : Statement (.rz) := ⟨rfl, rfl⟩
theorem ret : Statement (.ret) := ⟨rfl, rfl⟩
theorem jz (imm : Word16) : Statement (.jz imm) := ⟨rfl, rfl⟩
theorem cz (imm : Word16) : Statement (.cz imm) := ⟨rfl, rfl⟩
theorem call (imm : Word16) : Statement (.call imm) := ⟨rfl, rfl⟩
theorem aci (imm : Byte) : Statement (.aci imm) := ⟨rfl, rfl⟩
theorem rnc : Statement (.rnc) := ⟨rfl, rfl⟩
theorem jnc (imm : Word16) : Statement (.jnc imm) := ⟨rfl, rfl⟩
theorem outp (imm : Byte) : Statement (.outp imm) := ⟨rfl, rfl⟩
theorem cnc (imm : Word16) : Statement (.cnc imm) := ⟨rfl, rfl⟩
theorem sui (imm : Byte) : Statement (.sui imm) := ⟨rfl, rfl⟩
theorem rc : Statement (.rc) := ⟨rfl, rfl⟩
theorem jc (imm : Word16) : Statement (.jc imm) := ⟨rfl, rfl⟩
theorem inp (imm : Byte) : Statement (.inp imm) := ⟨rfl, rfl⟩
theorem cc (imm : Word16) : Statement (.cc imm) := ⟨rfl, rfl⟩
theorem sbi (imm : Byte) : Statement (.sbi imm) := ⟨rfl, rfl⟩
theorem rpo : Statement (.rpo) := ⟨rfl, rfl⟩
theorem jpo (imm : Word16) : Statement (.jpo imm) := ⟨rfl, rfl⟩
theorem xthl : Statement (.xthl) := ⟨rfl, rfl⟩
theorem cpo (imm : Word16) : Statement (.cpo imm) := ⟨rfl, rfl⟩
theorem ani (imm : Byte) : Statement (.ani imm) := ⟨rfl, rfl⟩
theorem rpe : Statement (.rpe) := ⟨rfl, rfl⟩
theorem pchl : Statement (.pchl) := ⟨rfl, rfl⟩
theorem jpe (imm : Word16) : Statement (.jpe imm) := ⟨rfl, rfl⟩
theorem xchg : Statement (.xchg) := ⟨rfl, rfl⟩
theorem cpe (imm : Word16) : Statement (.cpe imm) := ⟨rfl, rfl⟩
theorem xri (imm : Byte) : Statement (.xri imm) := ⟨rfl, rfl⟩
theorem rp : Statement (.rp) := ⟨rfl, rfl⟩
theorem jp (imm : Word16) : Statement (.jp imm) := ⟨rfl, rfl⟩
theorem di : Statement (.di) := ⟨rfl, rfl⟩
theorem cp (imm : Word16) : Statement (.cp imm) := ⟨rfl, rfl⟩
theorem ori (imm : Byte) : Statement (.ori imm) := ⟨rfl, rfl⟩
theorem rm : Statement (.rm) := ⟨rfl, rfl⟩
theorem sphl : Statement (.sphl) := ⟨rfl, rfl⟩
theorem jm (imm : Word16) : Statement (.jm imm) := ⟨rfl, rfl⟩
theorem ei : Statement (.ei) := ⟨rfl, rfl⟩
theorem cm (imm : Word16) : Statement (.cm imm) := ⟨rfl, rfl⟩
theorem cpi (imm : Byte) : Statement (.cpi imm) := ⟨rfl, rfl⟩
theorem undef (op : Byte) : Statement (.undef op) := ⟨rfl, rfl⟩

end Sys2Proof.Laws.EncodedLength
end

