-- ==== Sys2Proof/Machine/Flags.lean ====
section
/-!
DEFINITION. The flag computations of the block: there are none. "Flags and condition codes: none. System and control
registers: none" (10_state.md rule R28), and the rule of every mnemonic says "Flags written: none". The file stands
here, empty, so that a reader who looks for them finds that answer.
-/
end

