-- ==== Sys2Proof/Tests/Slice0.lean ====
section
/-!
SUPPORT. Tests: ill-formed terms, words written out from the encodings of the spec, single steps against the lines of
95_test_vectors.md, and for every statement with hypotheses a state and operands that meet them.
-/

namespace Sys2Proof.Tests

open Sys2Proof.Machine Sys2Proof.Claims

/-! ## Well-formedness -/

/-- Source: 44_ops_40_7f.md R230, `01110110` is excluded from MOV. -/
theorem test_mov_m_m_is_ill_formed : (Instr.mov .m .m).wellFormed = false := by decide

/-- Source: 40_decode_table.md R105: `--` for a defined opcode is ill-formed. -/
theorem test_undef_of_a_defined_opcode_is_ill_formed :
    (Instr.undef 0x00).wellFormed = false ∧ (Instr.undef 0xCC).wellFormed = false ∧
      (Instr.undef 0xFF).wellFormed = false := by decide

/-- Source: 44_ops_40_7f.md R230, 40_decode_table.md R105: the neighbours of the refused terms are accepted. -/
theorem test_neighbours_are_well_formed :
    (Instr.mov .m .a).wellFormed = true ∧ (Instr.mov .a .m).wellFormed = true ∧ Instr.hlt.wellFormed = true ∧
      undefinedSet.all (fun op => (Instr.undef op).wellFormed) = true := by decide

/-! ## Decoding: words written out bit by bit -/

/-- Every word decodes to the instruction beside it, which the encoder turns back into the word. -/
def decodesAll (rows : List (List Byte × Instr)) : Bool :=
  rows.all fun row =>
    (match decode row.1 with
      | .ok i => i == row.2
      | .error _ => false) && encode row.2 == row.1

/-- A buffer whose last bytes are the given ones, from an offset on, with the cursor on the first of them. -/
def loaded (offset : Nat) (bytes : List Byte) : State :=
  { mem := Memory.writeBytes [] offset bytes, len := offset + bytes.length, cur := offset, out := [] }

/-- One step from a loaded state writes the line, advances the cursor and changes nothing else. -/
def stepsAll (rows : List (Nat × List Byte × String × Nat)) : Bool :=
  rows.all fun row =>
    match step (loaded row.1 row.2.1) with
    | .next t => t == { loaded row.1 row.2.1 with cur := row.1 + row.2.2.2, out := [row.2.2.1.toList] }
    | _ => false

/-- Source: 43_ops_00_3f.md, R200 to R212. -/
theorem test_decode_R200_to_R212 :
    decodesAll
      [([0b00000000], .nop), ([0b00000001, 0xA5, 0x3C], .lxi .b 0x3CA5),
       ([0b00110001, 0xA5, 0x3C], .lxi .sp 0x3CA5), ([0b00000010], .stax .b), ([0b00010010], .stax .d),
       ([0b00000011], .inx .b), ([0b00110011], .inx .sp), ([0b00000100], .inr .b), ([0b00111100], .inr .a),
       ([0b00000101], .dcr .b), ([0b00111101], .dcr .a), ([0b00000110, 0xA5], .mvi .b 0xA5),
       ([0b00111110, 0xA5], .mvi .a 0xA5), ([0b00000111], .rlc), ([0b00001001], .dad .b), ([0b00111001], .dad .sp),
       ([0b00001010], .ldax .b), ([0b00011010], .ldax .d), ([0b00001011], .dcx .b), ([0b00111011], .dcx .sp),
       ([0b00001111], .rrc), ([0b00010111], .ral)] =
      true := by decide +kernel

/-- Source: 43_ops_00_3f.md, R213 to R221. -/
theorem test_decode_R213_to_R221 :
    decodesAll
      [([0b00011111], .rar), ([0b00100010, 0xA5, 0x3C], .shld 0x3CA5), ([0b00100111], .daa),
       ([0b00101010, 0xA5, 0x3C], .lhld 0x3CA5), ([0b00101111], .cma), ([0b00110010, 0xA5, 0x3C], .sta 0x3CA5),
       ([0b00110111], .stc), ([0b00111010, 0xA5, 0x3C], .lda 0x3CA5), ([0b00111111], .cmc)] =
      true := by decide +kernel

/-- Source: 44_ops_40_7f.md, R230 and R231. -/
theorem test_decode_R230_to_R231 :
    decodesAll
      [([0b01001000], .mov .c .b), ([0b01110101], .mov .m .l), ([0b01000110], .mov .b .m),
       ([0b01111111], .mov .a .a), ([0b01110110], .hlt)] =
      true := by decide +kernel

/-- Source: 45_ops_80_bf.md, R240 to R247. -/
theorem test_decode_R240_to_R247 :
    decodesAll
      [([0b10000000], .add .b), ([0b10000111], .add .a), ([0b10001000], .adc .b), ([0b10001111], .adc .a),
       ([0b10010000], .sub .b), ([0b10010111], .sub .a), ([0b10011000], .sbb .b), ([0b10011111], .sbb .a),
       ([0b10100000], .ana .b), ([0b10100111], .ana .a), ([0b10101000], .xra .b), ([0b10101111], .xra .a),
       ([0b10110000], .ora .b), ([0b10110111], .ora .a), ([0b10111000], .cmp .b), ([0b10111111], .cmp .a)] =
      true := by decide +kernel

/-- Source: 46_ops_c0_ff.md, R250 to R263. -/
theorem test_decode_R250_to_R263 :
    decodesAll
      [([0b11000000], .rnz), ([0b11000001], .pop .b), ([0b11110001], .pop .psw),
       ([0b11000010, 0xA5, 0x3C], .jnz 0x3CA5), ([0b11000011, 0xA5, 0x3C], .jmp 0x3CA5),
       ([0b11000100, 0xA5, 0x3C], .cnz 0x3CA5), ([0b11000101], .push .b), ([0b11110101], .push .psw),
       ([0b11000110, 0xA5], .adi 0xA5), ([0b11000111], .rst 0), ([0b11111111], .rst 7), ([0b11001000], .rz),
       ([0b11001001], .ret), ([0b11001010, 0xA5, 0x3C], .jz 0x3CA5), ([0b11001100, 0xA5, 0x3C], .cz 0x3CA5),
       ([0b11001101, 0xA5, 0x3C], .call 0x3CA5), ([0b11001110, 0xA5], .aci 0xA5)] =
      true := by decide +kernel

/-- Source: 46_ops_c0_ff.md, R264 to R273. -/
theorem test_decode_R264_to_R273 :
    decodesAll
      [([0b11010000], .rnc), ([0b11010010, 0xA5, 0x3C], .jnc 0x3CA5), ([0b11010011, 0xA5], .outp 0xA5),
       ([0b11010100, 0xA5, 0x3C], .cnc 0x3CA5), ([0b11010110, 0xA5], .sui 0xA5), ([0b11011000], .rc),
       ([0b11011010, 0xA5, 0x3C], .jc 0x3CA5), ([0b11011011, 0xA5], .inp 0xA5),
       ([0b11011100, 0xA5, 0x3C], .cc 0x3CA5), ([0b11011110, 0xA5], .sbi 0xA5)] =
      true := by decide +kernel

/-- Source: 46_ops_c0_ff.md, R274 to R284. -/
theorem test_decode_R274_to_R284 :
    decodesAll
      [([0b11100000], .rpo), ([0b11100010, 0xA5, 0x3C], .jpo 0x3CA5), ([0b11100011], .xthl),
       ([0b11100100, 0xA5, 0x3C], .cpo 0x3CA5), ([0b11100110, 0xA5], .ani 0xA5), ([0b11101000], .rpe),
       ([0b11101001], .pchl), ([0b11101010, 0xA5, 0x3C], .jpe 0x3CA5), ([0b11101011], .xchg),
       ([0b11101100, 0xA5, 0x3C], .cpe 0x3CA5), ([0b11101110, 0xA5], .xri 0xA5)] =
      true := by decide +kernel

/-- Source: 46_ops_c0_ff.md, R285 to R295. -/
theorem test_decode_R285_to_R295 :
    decodesAll
      [([0b11110000], .rp), ([0b11110010, 0xA5, 0x3C], .jp 0x3CA5), ([0b11110011], .di),
       ([0b11110100, 0xA5, 0x3C], .cp 0x3CA5), ([0b11110110, 0xA5], .ori 0xA5), ([0b11111000], .rm),
       ([0b11111001], .sphl), ([0b11111010, 0xA5, 0x3C], .jm 0x3CA5), ([0b11111011], .ei),
       ([0b11111100, 0xA5, 0x3C], .cm 0x3CA5), ([0b11111110, 0xA5], .cpi 0xA5)] =
      true := by decide +kernel

/-- Source: 30_encoding.md R66, the twelve undefined opcodes. -/
theorem test_decode_undefined :
    decodesAll
      [([0b00001000], .undef 0x08), ([0b00010000], .undef 0x10), ([0b00011000], .undef 0x18),
       ([0b00100000], .undef 0x20), ([0b00101000], .undef 0x28), ([0b00110000], .undef 0x30),
       ([0b00111000], .undef 0x38), ([0b11001011], .undef 0xCB), ([0b11011001], .undef 0xD9),
       ([0b11011101], .undef 0xDD), ([0b11101101], .undef 0xED), ([0b11111101], .undef 0xFD)] =
      true := by decide +kernel

/-! ## One step: the line and the cursor -/

/-- Source: 95_test_vectors.md section 2.5, one row of each of R200 to R210. -/
theorem test_step_R200_to_R210 :
    stepsAll
      [(0x0000, [0x00], "0000 00       NOP", 1), (0x0000, [0x31, 0xA5, 0x3C], "0000 31 a5 3c LXI    SP,$3ca5", 3),
       (0x0000, [0x12], "0000 12       STAX   D", 1), (0x0000, [0x33], "0000 33       INX    SP", 1),
       (0x0000, [0x3C], "0000 3c       INR    A", 1), (0x0000, [0x3D], "0000 3d       DCR    A", 1),
       (0x0000, [0x3E, 0xA5], "0000 3e a5    MVI    A,$a5", 2), (0x0000, [0x07], "0000 07       RLC", 1),
       (0x0000, [0x39], "0000 39       DAD    SP", 1), (0x0000, [0x1A], "0000 1a       LDAX   D", 1),
       (0x0000, [0x3B], "0000 3b       DCX    SP", 1)] = true := by decide +kernel

/-- Source: 95_test_vectors.md section 2.5, one row of each of R211 to R221. -/
theorem test_step_R211_to_R221 :
    stepsAll
      [(0x0000, [0x0F], "0000 0f       RRC", 1), (0x0000, [0x17], "0000 17       RAL", 1),
       (0x0000, [0x1F], "0000 1f       RAR", 1), (0x0000, [0x22, 0xA5, 0x3C], "0000 22 a5 3c SHLD   $3ca5", 3),
       (0x0000, [0x27], "0000 27       DAA", 1), (0x0000, [0x2A, 0xA5, 0x3C], "0000 2a a5 3c LHLD   $3ca5", 3),
       (0x0000, [0x2F], "0000 2f       CMA", 1), (0x0000, [0x32, 0xA5, 0x3C], "0000 32 a5 3c STA    $3ca5", 3),
       (0x0000, [0x37], "0000 37       STC", 1), (0x0000, [0x3A, 0xA5, 0x3C], "0000 3a a5 3c LDA    $3ca5", 3),
       (0x0000, [0x3F], "0000 3f       CMC", 1)] = true := by decide +kernel

/-- Source: 95_test_vectors.md section 2.5, one row of each of R230 to R247. -/
theorem test_step_R230_to_R247 :
    stepsAll
      [(0x0000, [0x7F], "0000 7f       MOV    A,A", 1), (0x0000, [0x76], "0000 76       HLT", 1),
       (0x0000, [0x87], "0000 87       ADD    A", 1), (0x0000, [0x8F], "0000 8f       ADC    A", 1),
       (0x0000, [0x97], "0000 97       SUB    A", 1), (0x0000, [0x9F], "0000 9f       SBB    A", 1),
       (0x0000, [0xA7], "0000 a7       ANA    A", 1), (0x0000, [0xAF], "0000 af       XRA    A", 1),
       (0x0000, [0xB7], "0000 b7       ORA    A", 1), (0x0000, [0xBF], "0000 bf       CMP    A", 1)] = true := by decide +kernel

/-- Source: 95_test_vectors.md section 2.5, one row of each of R250 to R261. -/
theorem test_step_R250_to_R261 :
    stepsAll
      [(0x0000, [0xC0], "0000 c0       RNZ", 1), (0x0000, [0xF1], "0000 f1       POP    PSW", 1),
       (0x0000, [0xC2, 0xA5, 0x3C], "0000 c2 a5 3c JNZ    $3ca5", 3),
       (0x0000, [0xC3, 0xA5, 0x3C], "0000 c3 a5 3c JMP    $3ca5", 3),
       (0x0000, [0xC4, 0xA5, 0x3C], "0000 c4 a5 3c CNZ    $3ca5", 3),
       (0x0000, [0xF5], "0000 f5       PUSH   PSW", 1), (0x0000, [0xC6, 0xA5], "0000 c6 a5    ADI    $a5", 2),
       (0x0000, [0xFF], "0000 ff       RST    7", 1), (0x0000, [0xC8], "0000 c8       RZ", 1),
       (0x0000, [0xC9], "0000 c9       RET", 1), (0x0000, [0xCA, 0xA5, 0x3C], "0000 ca a5 3c JZ     $3ca5", 3),
       (0x0000, [0xCC, 0xA5, 0x3C], "0000 cc a5 3c CZ     $3ca5", 3)] = true := by decide +kernel

/-- Source: 95_test_vectors.md section 2.5, one row of each of R262 to R273. -/
theorem test_step_R262_to_R273 :
    stepsAll
      [(0x0000, [0xCD, 0xA5, 0x3C], "0000 cd a5 3c CALL   $3ca5", 3),
       (0x0000, [0xCE, 0xA5], "0000 ce a5    ACI    $a5", 2), (0x0000, [0xD0], "0000 d0       RNC", 1),
       (0x0000, [0xD2, 0xA5, 0x3C], "0000 d2 a5 3c JNC    $3ca5", 3),
       (0x0000, [0xD3, 0xA5], "0000 d3 a5    OUT    $a5", 2),
       (0x0000, [0xD4, 0xA5, 0x3C], "0000 d4 a5 3c CNC    $3ca5", 3),
       (0x0000, [0xD6, 0xA5], "0000 d6 a5    SUI    $a5", 2), (0x0000, [0xD8], "0000 d8       RC", 1),
       (0x0000, [0xDA, 0xA5, 0x3C], "0000 da a5 3c JC     $3ca5", 3),
       (0x0000, [0xDB, 0xA5], "0000 db a5    IN     $a5", 2),
       (0x0000, [0xDC, 0xA5, 0x3C], "0000 dc a5 3c CC     $3ca5", 3),
       (0x0000, [0xDE, 0xA5], "0000 de a5    SBI    $a5", 2)] = true := by decide +kernel

/-- Source: 95_test_vectors.md section 2.5, one row of each of R274 to R284. -/
theorem test_step_R274_to_R284 :
    stepsAll
      [(0x0000, [0xE0], "0000 e0       RPO", 1), (0x0000, [0xE2, 0xA5, 0x3C], "0000 e2 a5 3c JPO    $3ca5", 3),
       (0x0000, [0xE3], "0000 e3       XTHL", 1), (0x0000, [0xE4, 0xA5, 0x3C], "0000 e4 a5 3c CPO    $3ca5", 3),
       (0x0000, [0xE6, 0xA5], "0000 e6 a5    ANI    $a5", 2), (0x0000, [0xE8], "0000 e8       RPE", 1),
       (0x0000, [0xE9], "0000 e9       PCHL", 1), (0x0000, [0xEA, 0xA5, 0x3C], "0000 ea a5 3c JPE    $3ca5", 3),
       (0x0000, [0xEB], "0000 eb       XCHG", 1), (0x0000, [0xEC, 0xA5, 0x3C], "0000 ec a5 3c CPE    $3ca5", 3),
       (0x0000, [0xEE, 0xA5], "0000 ee a5    XRI    $a5", 2)] = true := by decide +kernel

/-- Source: 95_test_vectors.md section 2.5, one row of each of R285 to R295. -/
theorem test_step_R285_to_R295 :
    stepsAll
      [(0x0000, [0xF0], "0000 f0       RP", 1), (0x0000, [0xF2, 0xA5, 0x3C], "0000 f2 a5 3c JP     $3ca5", 3),
       (0x0000, [0xF3], "0000 f3       DI", 1), (0x0000, [0xF4, 0xA5, 0x3C], "0000 f4 a5 3c CP     $3ca5", 3),
       (0x0000, [0xF6, 0xA5], "0000 f6 a5    ORI    $a5", 2), (0x0000, [0xF8], "0000 f8       RM", 1),
       (0x0000, [0xF9], "0000 f9       SPHL", 1), (0x0000, [0xFA, 0xA5, 0x3C], "0000 fa a5 3c JM     $3ca5", 3),
       (0x0000, [0xFB], "0000 fb       EI", 1), (0x0000, [0xFC, 0xA5, 0x3C], "0000 fc a5 3c CM     $3ca5", 3),
       (0x0000, [0xFE, 0xA5], "0000 fe a5    CPI    $a5", 2)] = true := by decide +kernel

/-- Source: 95_test_vectors.md section 2.1, V1 to V9: classes None, SingleRegister, RegisterPair. -/
theorem test_step_vectors_one_byte :
    stepsAll
      [(0x0000, [0x76], "0000 76       HLT", 1), (0x0010, [0xC9], "0010 c9       RET", 1),
       (0x0000, [0x80], "0000 80       ADD    B", 1), (0x00ff, [0xF5], "00ff f5       PUSH   PSW", 1),
       (0x1234, [0xFF], "1234 ff       RST    7", 1), (0x0000, [0x33], "0000 33       INX    SP", 1),
       (0x0000, [0x48], "0000 48       MOV    C,B", 1), (0x0000, [0x40], "0000 40       MOV    B,B", 1),
       (0xabcd, [0x77], "abcd 77       MOV    M,A", 1)] = true := by decide +kernel

/-- Source: 95_test_vectors.md section 2.1, V10 to V18: the classes with an immediate. -/
theorem test_step_vectors_immediate :
    stepsAll
      [(0x0000, [0x3E, 0xFF], "0000 3e ff    MVI    A,$ff", 2),
       (0x0100, [0x36, 0x00], "0100 36 00    MVI    M,$00", 2),
       (0x0000, [0x31, 0xFF, 0xFF], "0000 31 ff ff LXI    SP,$ffff", 3),
       (0xfff0, [0x21, 0xCD, 0xAB], "fff0 21 cd ab LXI    H,$abcd", 3),
       (0x0000, [0xDB, 0xFE], "0000 db fe    IN     $fe", 2), (0x0002, [0xFE, 0x0A], "0002 fe 0a    CPI    $0a", 2),
       (0x0000, [0xCD, 0x00, 0x00], "0000 cd 00 00 CALL   $0000", 3),
       (0x000c, [0x22, 0xEF, 0xBE], "000c 22 ef be SHLD   $beef", 3),
       (0x0000, [0x2A, 0x34, 0x12], "0000 2a 34 12 LHLD   $1234", 3)] = true := by decide +kernel

/-- Source: 95_test_vectors.md section 2.2, the truncated lines of T1 to T8, and the last lines of D-3 and D-4 in
section 2.4. -/
theorem test_step_truncated_and_last_offset :
    stepsAll
      [(0x0000, [0x3E], "0000 3e 00    MVI    A,$00", 1), (0x0000, [0x06], "0000 06 00    MVI    B,$00", 1),
       (0x0000, [0xC3], "0000 c3 00 00 JMP    $0000", 1), (0x0000, [0xC3, 0x10], "0000 c3 10 00 JMP    $0010", 2),
       (0x0000, [0x01, 0xAA], "0000 01 aa 00 LXI    B,$00aa", 2),
       (0x0002, [0xCD, 0x34], "0002 cd 34 00 CALL   $0034", 2), (0x0000, [0xD3], "0000 d3 00    OUT    $00", 1),
       (0x0001, [0xFE], "0001 fe 00    CPI    $00", 1), (0xFFFE, [0xC3, 0x12], "fffe c3 12 00 JMP    $0012", 2),
       (0xFFFF, [0x00], "ffff 00       NOP", 1)] = true := by decide +kernel

/-! ## The ROM, the driver and the host boundary -/

/-- The number of opcodes of a class. -/
def countOfClass (c : OperandClass) : Nat :=
  ((List.range 256).filter fun n => (lookup (BitVec.ofNat 8 n)).operandClass == c).length

/-- Source: 30_encoding.md R65. -/
theorem test_rom_class_counts :
    countOfClass .none = 37 ∧ countOfClass .singleRegister = 112 ∧ countOfClass .registerPair = 63 ∧
      countOfClass .immediate8ToRegister = 8 ∧ countOfClass .immediate16ToRegister = 4 ∧
      countOfClass .immediate8Standalone = 10 ∧ countOfClass .immediate16Standalone = 22 := by decide +kernel

/-- Source: 10_state.md R24, 40_decode_table.md R103: the entry of `0x75`. -/
theorem test_rom_entry_of_75 :
    lookup 0x75 =
      { mnemonic := "MOV".toList, operandClass := .registerPair, length := 1, register1 := some "M".toList,
        register2 := some "L".toList } := by decide

/-- Source: 95_test_vectors.md U13: the byte after an undefined opcode is the next opcode. -/
theorem test_sentinel_has_length_one :
    stepsAll [(0, [0xCB, 0x01, 0x02], "0000 cb       --", 1), (1, [0x01, 0x02], "0001 01 02 00 LXI    B,$0002", 2)] =
      true := by decide +kernel

/-- Source: 95_test_vectors.md D-2: the bytes of the stream, the newline 0x0A among them. -/
theorem test_stream_bytes :
    streamBytes ["0000 00       NOP".toList] =
      [0x30, 0x30, 0x30, 0x30, 0x20, 0x30, 0x30, 0x20, 0x20, 0x20, 0x20, 0x20, 0x20, 0x20, 0x4E, 0x4F, 0x50, 0x0A] := by
  decide

/-- Source: 95_test_vectors.md D-1: an empty buffer gives no step and no text. -/
theorem test_empty_buffer : launch [] = .next State.reset ∧ step State.reset = .refused .stepNotEnabled ∧
    streamText State.reset.out = [] := ⟨rfl, rfl, rfl⟩

/-- Source: 95_test_vectors.md D-5. -/
theorem test_buffer_too_long : launch (List.replicate 65537 0) = .refused .bufferTooLong := by
  rw [launch, List.length_replicate]; rfl

/-- Source: 41_formatter.md R120, R137: both length outputs of a truncated `c3 10`. -/
theorem test_total_length_and_advance :
    (match format (lookup 0xC3) 0 2 [0xC3, 0x10] with
      | .ok f => f.totalLength == 3 && f.advance == 2
      | .error _ => false) = true := by decide

/-- Source: 60_exceptions.md R315: the formatter called with no byte. -/
theorem test_format_without_a_byte : format (lookup 0x00) 0 0 [] = .error .noByte := rfl

/-- A table word's bits count from the first byte: 0x3CA501 is `01 a5 3c` (30_encoding.md R61). -/
theorem test_table_word : decodeTableWord 24 0x3CA501 = some (.lxi .b 0x3CA5) ∧
    decodeTableWord 8 0x01 = some (.lxi .b 0x0000) ∧ decodeTableWord 8 0x08 = some (.undef 0x08) := by decide

/-- The first step after a placement in the reset state runs the placed word. -/
theorem test_placed_word_at_reset :
    (match step (State.reset.withFetchWord 16 0x05DB) with
      | .next t => t.out == ["0000 db 05    IN     $05".toList] && t.cur == 2
      | _ => false) = true := by decide

/-! ## Witnesses: every statement's hypotheses can be met -/

/-- The largest buffer's last byte: an address instruction with neither operand byte. -/
def lastByte : State := loaded 65535 [0xC3]

/-- An undefined opcode, the last byte of the largest buffer. -/
def lastUndefined : State := loaded 65535 [0xFD]

/-- The last complete 3-byte instruction of the largest buffer. -/
def lastComplete : State := loaded 65533 [0x31, 0xFF, 0xFF]

/-- The state after a line has been written: `3e 05` done, `c9` next. -/
def secondLine : State :=
  { mem := Memory.writeBytes [] 0 [0x3E, 0x05, 0xC9], len := 3, cur := 2,
    out := ["0000 3e 05    MVI    A,$05".toList] }

/-- The state after `secondLine`'s step. -/
def afterSecondLine : State :=
  { secondLine with cur := 3, out := secondLine.out ++ ["0002 c9       RET".toList] }

theorem step_secondLine : step secondLine = .next afterSecondLine := rfl

theorem enabled_lastByte : lastByte.Enabled := by decide
theorem enabled_lastUndefined : lastUndefined.Enabled := by decide
theorem enabled_lastComplete : lastComplete.Enabled := by decide
theorem enabled_secondLine : secondLine.Enabled := by decide

theorem witness_DecodeReadsBackEveryEncodedInstruction :
    (Instr.mov .m .a).wellFormed = true ∧ (Instr.lxi .sp 0xFFFF).wellFormed = true ∧
      (Instr.undef 0xFD).wellFormed = true := by decide

theorem witness_RomLengthIsTheClassLength : Nonempty RomWordEncoding := romWordEncoding_exists

theorem witness_RomNamesTheRegistersItsClassShows : Nonempty RomWordEncoding := romWordEncoding_exists

/-- Both sides of the equivalence occur. -/
theorem witness_SentinelIsShownForExactlyTheTwelve :
    lastUndefined.Enabled ∧ lastUndefined.mem.read lastUndefined.cur ∈ undefinedSet ∧
      lastByte.Enabled ∧ lastByte.mem.read lastByte.cur ∉ undefinedSet := by decide

theorem witness_StepExecutesTheDecodedInstruction :
    lastByte.cur < lastByte.len ∧ decode (fetchBytes lastByte) = .ok (.jmp 0) ∧
      lastComplete.cur < lastComplete.len ∧ decode (fetchBytes lastComplete) = .ok (.lxi .sp 0xFFFF) :=
  ⟨by decide, rfl, by decide, rfl⟩

theorem witness_StepReadsTheInstructionsBytesOnly :
    lastByte.cur < lastByte.len ∧ (fetchBytes lastByte).length = 1 ∧ lastComplete.cur < lastComplete.len ∧
      (fetchBytes lastComplete).length = 3 := by decide

theorem witness_StepIsEnabledExactlyBelowTheEnd :
    lastByte.len ≤ Config.bufMax ∧ lastByte.cur < lastByte.len ∧ afterSecondLine.len ≤ Config.bufMax ∧
      afterSecondLine.cur = afterSecondLine.len := by decide

theorem witness_StepAdvancesWithinTheBuffer : step secondLine = .next afterSecondLine := step_secondLine

theorem witness_BufferIsNeverWritten :
    exec .ret secondLine = .next afterSecondLine ∧ core.run 1 secondLine = .next afterSecondLine := ⟨rfl, rfl⟩

theorem witness_EveryInstructionAppendsOneLine : exec .ret secondLine = .next afterSecondLine := rfl

theorem witness_StreamGrowsByTheLineAndOneNewline : step secondLine = .next afterSecondLine := step_secondLine

theorem witness_StepKeepsTheStateInvariant : secondLine.Inv ∧ step secondLine = .next afterSecondLine :=
  ⟨by decide, step_secondLine⟩

theorem first_line_characters :
    ("0000 3e 05    MVI    A,$05".toList).all (fun c => decide (c ∈ lineChars)) = true := by decide

theorem witness_StepKeepsTheOutputInvariant : secondLine.OutputInv ∧ step secondLine = .next afterSecondLine := by
  refine ⟨⟨fun line h => ?_, by decide, by decide⟩, step_secondLine⟩
  obtain rfl := List.mem_singleton.mp h
  exact ⟨by decide, by decide, fun c hc => of_decide_eq_true (List.all_eq_true.mp first_line_characters c hc)⟩

/-- One instruction runs past the end, one is complete and ends there. -/
theorem witness_TruncationEndsThePass :
    lastByte.Enabled ∧ lastByte.len - lastByte.cur < (lookup (lastByte.mem.read lastByte.cur)).length ∧
      lastComplete.Enabled ∧
      (lookup (lastComplete.mem.read lastComplete.cur)).length ≤ lastComplete.len - lastComplete.cur := by decide

theorem witness_UnknownOpcodesNeverStopThePass :
    lastUndefined.Enabled ∧ lookup (lastUndefined.mem.read lastUndefined.cur) = sentinel := by decide

theorem witness_NoControlFlowIsFollowed : Instr.jmp ∈ controlTransfers ∧ lastByte.Enabled :=
  ⟨List.mem_cons_self, enabled_lastByte⟩

/-- The other buffer differs in a byte the step does not consume. -/
theorem witness_OtherBytesDoNotAffectAStep :
    step secondLine = .next afterSecondLine ∧
      (∀ j < min (lookup (secondLine.mem.read secondLine.cur)).length (secondLine.len - secondLine.cur),
        (Memory.write secondLine.mem 0 0xFF).read (secondLine.cur + j) = secondLine.mem.read (secondLine.cur + j)) ∧
      Memory.write secondLine.mem 0 0xFF ≠ secondLine.mem :=
  ⟨step_secondLine, by decide, by decide⟩

/-- Both clauses at their boundary. -/
theorem witness_LaunchStartsAPassOverTheImage :
    (List.replicate 65536 (0xFF : Byte)).length ≤ Config.bufMax ∧
      Config.bufMax < (List.replicate 65537 (0xFF : Byte)).length := by
  rw [List.length_replicate, List.length_replicate]; decide

theorem witness_EveryPassEnds : lastByte.Inv ∧ secondLine.Inv := by decide

theorem witness_PassWritesTheListing : (List.replicate 65536 (0xFF : Byte)).length ≤ Config.bufMax := by
  rw [List.length_replicate]; decide

theorem witness_SecondPassRepeatsTheFirst :
    ∃ s, launch [0x3E, 0x05, 0xC9] = .next s ∧ core.run 2 s = .next afterSecondLine ∧ afterSecondLine.Final :=
  ⟨_, rfl, rfl, rfl⟩

theorem witness_PlacedWordIsExecutedNext :
    State.reset.mem.wf = true ∧ lastByte.mem.wf = true ∧ decodeTableWord 24 0xFFFF31 = some (.lxi .sp 0xFFFF) := by
  decide

/-- One byte of three is available: index 0 is read, index 1 is the first that counts as zero. -/
theorem witness_MissingBytesCountAsZero :
    availableByte 1 [0xC3, 0x10, 0x20] 0 = 0xC3 ∧ availableByte 1 [0xC3, 0x10, 0x20] 1 = 0 ∧
      availableByte 2 [0xC3, 0x10, 0x20] 1 = 0x10 := by decide

theorem witness_TotalLengthIsTheDescriptorsLength : 1 ≤ 1 ∧ 65535 + 1 ≤ Config.bufMax := by decide

/-- Offset 65535 with one byte left, and a complete instruction that ends the buffer. -/
theorem witness_AdvanceIsTheClampedLength :
    (1 ≤ 1 ∧ 65535 + 1 ≤ Config.bufMax ∧ 1 < (lookup 0xC3).length) ∧
      (1 ≤ 3 ∧ 65533 + 3 ≤ Config.bufMax ∧ (lookup 0xC3).length ≤ 3) := by decide

theorem witness_BytesAndPaddingFillNineColumns :
    (1 ≤ (lookup 0x00).length ∧ (lookup 0x00).length ≤ 3 ∧ ∃ f, format (lookup 0x00) 65535 1 [0x00] = .ok f) ∧
      (1 ≤ (lookup 0xC3).length ∧ (lookup 0xC3).length ≤ 3 ∧ ∃ f, format (lookup 0xC3) 65535 1 [0xC3] = .ok f) :=
  ⟨⟨by decide, by decide, _, rfl⟩, by decide, by decide, _, rfl⟩

/-- One entry of class None, one with an operand. -/
theorem witness_MnemonicAndOperandStandInTheirColumns :
    lastUndefined.Enabled ∧ (lookup (lastUndefined.mem.read lastUndefined.cur)).operandClass = .none ∧
      lastByte.Enabled ∧ (lookup (lastByte.mem.read lastByte.cur)).operandClass ≠ .none := by decide

/-- The general clause at the last byte, the example's at offset 0. -/
theorem witness_NopRowOfTheRom : lastByte.Enabled ∧ (loaded 0 [0x00]).Enabled ∧ (loaded 0 [0x00]).cur = 0 := by decide

/-! For the statements of an instruction's line: an enabled state, and the row's line at that state. -/

theorem witness_LowPlainInstructionsShowTheirName :
    lastByte.Enabled ∧ Renders .cmc lastByte [0x3F] "CMC".toList := ⟨enabled_lastByte, rfl⟩

theorem witness_LxiShowsPairAndWord :
    lastByte.Enabled ∧ (.sp, 3, "SP") ∈ pairs ∧
      Renders (.lxi .sp 0xFFFF) lastByte [0x31, 0, 0] (operandTail "LXI" "SP,$0000".toList) ∧
      Renders (.lxi .sp 0xFFFF) lastComplete [0x31, 0xFF, 0xFF] (operandTail "LXI" "SP,$ffff".toList) :=
  ⟨enabled_lastByte, by decide, rfl, rfl⟩

theorem witness_PairInstructionsShowTheirPair :
    lastByte.Enabled ∧ (.sp, 3, "SP") ∈ pairs ∧ Renders (.dcx .sp) lastByte [0x3B] (operandTail "DCX" "SP".toList) ∧
      (.d, 1, "D") ∈ indexPairs ∧ Renders (.ldax .d) lastByte [0x1A] (operandTail "LDAX" "D".toList) :=
  ⟨enabled_lastByte, by decide, rfl, by decide, rfl⟩

theorem witness_IncrementAndDecrementShowTheirRegister :
    lastByte.Enabled ∧ (.a, 7, "A") ∈ registers ∧ Renders (.dcr .a) lastByte [0x3D] (operandTail "DCR" "A".toList) :=
  ⟨enabled_lastByte, by decide, rfl⟩

theorem witness_MviShowsRegisterAndByte :
    lastByte.Enabled ∧ (.a, 7, "A") ∈ registers ∧
      Renders (.mvi .a 0xFF) lastByte [0x3E, 0] (operandTail "MVI" "A,$00".toList) ∧
      Renders (.mvi .a 0xFF) lastComplete [0x3E, 0xFF] (operandTail "MVI" "A,$ff".toList) :=
  ⟨enabled_lastByte, by decide, rfl, rfl⟩

theorem witness_DirectAddressInstructionsShowTheirAddress :
    lastByte.Enabled ∧ Renders (.lda 0xFFFF) lastByte [0x3A, 0, 0] (operandTail "LDA" "$0000".toList) :=
  ⟨enabled_lastByte, rfl⟩

/-- `M` on either side, the neighbours of the excluded form. -/
theorem witness_MovShowsDestinationAndSource :
    lastByte.Enabled ∧ (.m, 6, "M") ∈ registers ∧ (.a, 7, "A") ∈ registers ∧
      Renders (.mov .m .a) lastByte [0x77] (operandTail "MOV" "M,A".toList) ∧
      Renders (.mov .a .m) lastByte [0x7E] (operandTail "MOV" "A,M".toList) :=
  ⟨enabled_lastByte, by decide, by decide, rfl, rfl⟩

theorem witness_RegisterArithmeticShowsItsRegister :
    lastByte.Enabled ∧ (.a, 7, "A") ∈ registers ∧ Renders (.cmp .a) lastByte [0xBF] (operandTail "CMP" "A".toList) :=
  ⟨enabled_lastByte, by decide, rfl⟩

theorem witness_StackInstructionsShowTheirPair :
    lastByte.Enabled ∧ (.psw, 3, "PSW") ∈ stackPairs ∧
      Renders (.push .psw) lastByte [0xF5] (operandTail "PUSH" "PSW".toList) :=
  ⟨enabled_lastByte, by decide, rfl⟩

theorem witness_ImmediateArithmeticShowsItsByte :
    lastByte.Enabled ∧ Renders (.cpi 0xFF) lastByte [0xFE, 0] (operandTail "CPI" "$00".toList) :=
  ⟨enabled_lastByte, rfl⟩

theorem witness_JumpsAndCallsShowTheirAddress :
    lastByte.Enabled ∧ Renders (.cm 0xFFFF) lastByte [0xFC, 0, 0] (operandTail "CM" "$0000".toList) :=
  ⟨enabled_lastByte, rfl⟩

theorem witness_ReturnsAndExchangesShowTheirName :
    lastByte.Enabled ∧ Renders .sphl lastByte [0xF9] "SPHL".toList := ⟨enabled_lastByte, rfl⟩

theorem witness_SystemInstructionsAreRenderedOnly :
    lastByte.Enabled ∧ Renders .ei lastByte [0xFB] "EI".toList ∧
      Renders (.rst 7) lastByte [0xFF] (operandTail "RST" "7".toList) ∧
      Renders (.inp 0xFF) lastByte [0xDB, 0] (operandTail "IN" "$00".toList) :=
  ⟨enabled_lastByte, rfl, rfl, rfl⟩

/-- An undefined opcode at an enabled state, and a defined one beside it. -/
theorem witness_UndefinedOpcodesShowTheSentinel :
    lastByte.Enabled ∧ 0xFD ∈ undefinedSet ∧ Renders (.undef 0xFD) lastByte [0xFD] "--".toList ∧
      0xFC ∉ undefinedSet :=
  ⟨enabled_lastByte, by decide, rfl, by decide⟩

theorem witness_NoByteIsRefused :
    Instr.hlt.wellFormed = true ∧ afterSecondLine.len ≤ afterSecondLine.cur := by decide

/-- The smallest refused image and the smallest refused buffer. -/
theorem witness_LongBuffersAndBufferWritesAreRefused :
    Config.bufMax < (List.replicate 65537 (0x00 : Byte)).length ∧ Config.bufMax < (loaded 65536 [0x00]).len ∧
      (loaded 65536 [0x00]).cur < (loaded 65536 [0x00]).len :=
  ⟨by rw [List.length_replicate]; decide, by decide, by decide⟩

/-- A packing, and a run that reaches a next state. -/
theorem witness_PassTakesItsParametersAsArguments :
    Nonempty RomWordEncoding ∧ core.run 1 secondLine = .next afterSecondLine ∧
      passSteps lookup secondLine.buffer 1 secondLine.progress = .ok afterSecondLine.progress :=
  ⟨romWordEncoding_exists, rfl, rfl⟩

end Sys2Proof.Tests
end

section
/-!
PROOFS. The decoder ROM read through a packing of its words (40_decode_table.md).
-/

namespace Sys2Proof.Proofs

open Sys2Proof.Machine

/-- R102 through a packing: unpacking gives the ROM's own entry (R109), and the law of that entry carries over. -/
theorem lookupPacked_length (encoding : RomWordEncoding) (op : Byte) :
    (lookupPacked encoding op).length = classLength (lookupPacked encoding op).operandClass := by
  rw [lookupPacked_eq]
  exact lookup_length op

/-- Settles O5: the invariant of the packed entry is `lookupPacked_length`; the seven values are the equations of
`classLength`. -/
theorem romLengthIsTheClassLength : Obligations.RomLengthIsTheClassLength :=
  fun encoding op => ⟨lookupPacked_length encoding op, rfl, rfl, rfl, rfl, rfl, rfl, rfl⟩

end Sys2Proof.Proofs
end

section
/-!
PROOFS. The formatter and its domain (41_formatter.md): the bytes it depends on, and its `totalLength`.
-/

namespace Sys2Proof.Proofs

open Sys2Proof.Machine

theorem availableByte_of_lt {avail i : Nat} (h : i < avail) (b : List Byte) :
    availableByte avail b i = b.getD i 0 :=
  if_pos h

theorem availableByte_of_le {avail i : Nat} (h : avail ≤ i) (b : List Byte) : availableByte avail b i = 0 :=
  if_neg (Nat.not_lt.mpr h)

/-- A list reads the same with zeros after it, for an absent byte reads as 00. -/
theorem getD_append_zeros (b : List Byte) (k i : Nat) : (b ++ List.replicate k 0).getD i 0 = b.getD i 0 := by
  rcases Nat.lt_or_ge i b.length with hi | hi
  · exact List.getD_append _ _ _ _ hi
  · rw [List.getD_append_right _ _ _ _ hi, List.getD_eq_default _ _ hi, List.getD_eq_getElem?_getD,
      List.getElem?_getD_replicate_default_eq]

theorem getD_take_of_lt {n i : Nat} (h : i < n) (b : List Byte) : (b.take n).getD i 0 = b.getD i 0 := by
  rw [List.getD_eq_getElem?_getD, List.getElem?_take_of_lt h, List.getD_eq_getElem?_getD]

/-- The formatter depends on the bytes only through the bytes available, refusals included (R121, R138). -/
theorem format_congr (d : Descriptor) (offset : Nat) {avail : Nat} {b b' : List Byte}
    (h : ∀ i, i < avail → b.getD i 0 = b'.getD i 0) : format d offset avail b = format d offset avail b' := by
  have hline : formatLine d offset avail b = formatLine d offset avail b' := formatLine_congr fun i hi _ => h i hi
  unfold format
  rw [hline]

/-- Settles O28: below the count the list and its zero-filled form hold the same bytes, so `format_congr` gives the
first clause; the others are the two cases of `availableByte`. -/
theorem missingBytesCountAsZero : Obligations.MissingBytesCountAsZero := by
  intro d offset avail b
  have hbytes : ∀ i, i < avail → b.getD i 0 = (b.take avail ++ List.replicate 3 0).getD i 0 := fun i hi => by
    rw [getD_append_zeros, getD_take_of_lt hi]
  exact ⟨format_congr d offset hbytes, fun _ hi => availableByte_of_lt hi b, fun _ hi => availableByte_of_le hi b,
    fun h => availableByte_of_lt h b⟩

/-- Settles O29: within its domain the formatter answers by `format_eq_ok`, with the descriptor's length. -/
theorem totalLengthIsTheDescriptorsLength : Obligations.TotalLengthIsTheDescriptorsLength :=
  fun d _ _ b h hmax => ⟨_, format_eq_ok d b h hmax, rfl⟩

end Sys2Proof.Proofs
end

section
/-!
PROOFS. The driver's step (42_driver.md): when it is enabled, and that nothing but the formatter's advance moves the cursor.
-/

namespace Sys2Proof.Proofs

open Sys2Proof.Machine

theorem wellFormed_decodeOpcode (op lo hi : Byte) : (decodeOpcode op lo hi).wellFormed = true := by
  rw [decodeOpcode, wellFormed_withOperand, wellFormed_opcodeMap]

theorem entryOf_decodeOpcode (op lo hi : Byte) : entryOf (decodeOpcode op lo hi) = lookup op := by
  rw [decodeOpcode, entryOf_withOperand, entryOf_opcodeMap]

/-- Where a step is enabled, a well-formed instruction emits the line of its entry and moves the cursor over its length as
far as the buffer goes; nothing else. -/
theorem exec_of_enabled {i : Instr} {s : State} (hi : i.wellFormed = true) (h : s.Enabled) :
    exec i s =
      .next { mem := s.mem, len := s.len, cur := s.cur + min (entryOf i).length (s.len - s.cur),
              out := s.out ++ [formatLine (entryOf i) s.cur (s.len - s.cur) (encode i)] } := by
  rw [exec_eq_runEntry i s hi, runEntry_of_enabled _ _ h]

/-- An enabled step answers, and its cursor has moved by the length of the opcode's entry, clamped to the bytes left
(R153). -/
theorem step_of_enabled {s : State} (h : s.Enabled) :
    ∃ t, step s = .next t ∧ t.cur = s.cur + min (lookup (s.mem.read s.cur)).length (s.len - s.cur) := by
  rw [step_of_lt h.1, exec_of_enabled (wellFormed_decodeOpcode ..) h, entryOf_decodeOpcode]
  exact ⟨_, rfl, rfl⟩

/-- A step that answers was asked for with the cursor inside the buffer. -/
theorem cur_lt_len_of_step {s t : State} (h : step s = .next t) : s.cur < s.len := by
  by_contra hlt
  rw [step_of_le (Nat.not_lt.mp hlt)] at h
  cases h

/-- Settles O11: `step_of_enabled` gives the step below the end, `cur_lt_len_of_step` says there is none elsewhere. -/
theorem stepIsEnabledExactlyBelowTheEnd : Obligations.StepIsEnabledExactlyBelowTheEnd := by
  intro s hmax
  have hiff : (∃ t, step s = .next t) ↔ s.cur < s.len :=
    ⟨fun ⟨_, ht⟩ => cur_lt_len_of_step ht, fun hlt => (step_of_enabled ⟨hlt, hmax⟩).imp fun _ ht => ht.1⟩
  exact ⟨hiff, fun hend hstep => Nat.ne_of_lt (hiff.mp hstep) hend⟩

/-- Settles O20: the cursor moves by the sentinel's length 1, which the clamp keeps, for a byte is left. -/
theorem unknownOpcodesNeverStopThePass : Obligations.UnknownOpcodesNeverStopThePass := by
  refine ⟨rfl, fun s h hsentinel => ?_⟩
  have hone : min sentinel.length (s.len - s.cur) = 1 := Nat.min_eq_left (Nat.sub_pos_of_lt h.1)
  obtain ⟨t, ht, hcur⟩ := step_of_enabled h
  rw [hsentinel, hone] at hcur
  exact ⟨t, ht, hcur⟩

/-- Every transfer of control is an instruction of the map, whatever its address, and the ROM's entry at its opcode is the
one its meaning names (R64, R106). -/
theorem controlTransfers_in_map {transfer : Word16 → Instr} (h : transfer ∈ Claims.controlTransfers)
    (address : Word16) :
    (transfer address).wellFormed = true ∧ lookup (opcodeOf (transfer address)) = entryOf (transfer address) := by
  fin_cases h <;> exact ⟨rfl, rfl⟩

/-- Settles O21: a transfer has no case of its own in `exec_of_enabled`; the line and the advance there are the formatter's
answer for its ROM entry, which `controlTransfers_in_map` finds at its opcode. -/
theorem noControlFlowIsFollowed : Obligations.NoControlFlowIsFollowed := by
  intro transfer htransfer address s h
  obtain ⟨hw, hentry⟩ := controlTransfers_in_map htransfer address
  have hformat := format_eq_ok (entryOf (transfer address)) (encode (transfer address)) (offset := s.cur)
    (avail := s.len - s.cur) (Nat.sub_pos_of_lt h.1) (by omega)
  rw [hentry]
  exact ⟨_, hformat, exec_of_enabled hw h⟩

end Sys2Proof.Proofs
end

section
/-!
PROOFS. The opcodes 0x00 to 0x3F (43_ops_00_3f.md): the line of an entry of class None, and NOP's row.
-/

namespace Sys2Proof.Proofs

open Sys2Proof.Machine

/-- The line of an entry of class None: the offset, the one byte, two empty slots, and the mnemonic as its end (R126,
R127). -/
theorem formatLine_entryNone (mnemonic : String) (offset : Nat) {avail : Nat} (b : Byte) (h : 0 < avail) :
    formatLine (entryNone mnemonic) offset avail [b] =
      offsetField offset ++ byteSlot b ++ spaces 6 ++ mnemonic.toList := by
  have hraw : rawByteField 1 avail [b] = byteSlot (availableByte avail [b] 0) := rfl
  rw [availableByte_of_lt h] at hraw
  change offsetField offset ++ rawByteField 1 avail [b] ++ spaces 6 ++ mnemonic.toList = _
  rw [hraw, List.getD_cons_zero]

/-- The mnemonic stands at column 14: the offset takes five columns, the byte three, the empty slots six (R125). -/
theorem drop_formatLine_entryNone (mnemonic : String) (offset : Nat) {avail : Nat} (b : Byte) (h : 0 < avail) :
    (formatLine (entryNone mnemonic) offset avail [b]).drop 14 = mnemonic.toList := by
  rw [formatLine_entryNone mnemonic offset b h]
  exact List.drop_left' rfl

/-- Settles O33: `exec_of_enabled` gives NOP's next state with the line of its entry, which `formatLine_entryNone` writes
out; the cursor's clamp keeps the length 1, for a byte is left. -/
theorem nopRowOfTheRom : Obligations.NopRowOfTheRom := by
  refine ⟨rfl, rfl, fun s h => ?_⟩
  have havail : 0 < s.len - s.cur := Nat.sub_pos_of_lt h.1
  have hone : min (entryOf .nop).length (s.len - s.cur) = 1 := Nat.min_eq_left havail
  have hexec := exec_of_enabled (i := .nop) rfl h
  rw [hone] at hexec
  refine ⟨_, hexec, drop_formatLine_entryNone "NOP" s.cur 0 havail, fun hcur => ?_⟩
  calc formatLine (entryNone "NOP") s.cur (s.len - s.cur) [0]
      = offsetField s.cur ++ byteSlot 0 ++ spaces 6 ++ "NOP".toList := formatLine_entryNone "NOP" s.cur 0 havail
    _ = "0000 00       NOP".toList := by rw [hcur]; rfl

end Sys2Proof.Proofs
end

section
/-!
PROOFS. The encoding (30_encoding.md): an instruction's opcode finds it in the map, its operand bytes give its immediate
back, and the decoder reads what the encoder writes.
-/

namespace Sys2Proof.Proofs

open Sys2Proof.Machine

/-- The opcode of a well-formed instruction is its place in the map, where its immediate stands as 0 (R60, R64). -/
theorem opcodeMap_opcodeOf {i : Instr} (h : i.wellFormed = true) :
    opcodeMap[(opcodeOf i).toNat]'(opcode_in_map _) = i.withOperand 0 0 := by
  cases i with
  | lxi r _ | inx r | dad r | dcx r | stax r | ldax r | push r | pop r => cases r <;> rfl
  | inr r | dcr r | mvi r _ | add r | adc r | sub r | sbb r | ana r | xra r | ora r | cmp r => cases r <;> rfl
  | mov dst src =>
    cases dst <;> cases src
    case m.m => exact absurd h (by decide)
    all_goals rfl
  | rst n => revert n; decide
  | undef op => revert op; decide
  | _ => rfl

theorem withOperand_withOperand (lo hi lo' hi' : Byte) (i : Instr) :
    (i.withOperand lo' hi').withOperand lo hi = i.withOperand lo hi := by
  cases i <;> rfl

/-- An instruction's own operand bytes, read with whatever follows them, give its immediate back (R61, R63). -/
theorem withOperand_operandBytes (i : Instr) (rest : List Byte) :
    i.withOperand ((operandBytes i ++ rest).getD 0 0) ((operandBytes i ++ rest).getD 1 0) = i := by
  cases i with
  | lxi _ imm | shld imm | lhld imm | sta imm | lda imm | jnz imm | jmp imm | cnz imm | jz imm | cz imm | call imm
  | jnc imm | cnc imm | jc imm | cc imm | jpo imm | cpo imm | jpe imm | cpe imm | jp imm | cp imm | jm imm | cm imm =>
    exact congrArg _ (imm16_bytes imm)
  | _ => rfl

/-- Settles O1: the opcode finds the map's entry of `i`, and `i`'s own operand bytes fill its immediate in. -/
theorem decodeReadsBackEveryEncodedInstruction : Obligations.DecodeReadsBackEveryEncodedInstruction := by
  intro i rest h
  have hdecode : decode (encode i ++ rest) =
      .ok (decodeOpcode (opcodeOf i) ((operandBytes i ++ rest).getD 0 0) ((operandBytes i ++ rest).getD 1 0)) := rfl
  rw [hdecode, decodeOpcode, opcodeMap_opcodeOf h, withOperand_withOperand, withOperand_operandBytes]

theorem opcodeOf_withOperand (lo hi : Byte) (i : Instr) : opcodeOf (i.withOperand lo hi) = opcodeOf i := by
  cases i <;> rfl

/-- The operand bytes of a filled-in instruction are the bytes it was filled in from, as many as its entry has room
for. -/
theorem operandBytes_withOperand (lo hi : Byte) (i : Instr) :
    operandBytes (i.withOperand lo hi) = [lo, hi].take ((entryOf i).length - 1) := by
  have hword : [(imm16 lo hi).extractLsb' 0 8, (imm16 lo hi).extractLsb' 8 8] = [lo, hi] := by
    rw [imm16_lowByte, imm16_highByte]
  cases i with
  | lxi | shld | lhld | sta | lda | jnz | jmp | cnz | jz | cz | call
  | jnc | cnc | jc | cc | jpo | cpo | jpe | cpe | jp | cp | jm | cm => exact hword
  | _ => rfl

/-- The encoding of a decoded instruction is what it consumed of the opcode and the two bytes after it. -/
theorem encode_decodeOpcode (op lo hi : Byte) :
    encode (decodeOpcode op lo hi) = [op, lo, hi].take (lookup op).length := by
  obtain ⟨n, hn⟩ := Nat.exists_eq_add_of_le' (lookup_length_bounds op).1
  rw [encode, decodeOpcode, opcodeOf_withOperand, opcodeOf_opcodeMap, operandBytes_withOperand, entryOf_opcodeMap, hn]
  rfl

/-- Settles O2: `wellFormed_decodeOpcode` and `encode_decodeOpcode`. -/
theorem encodeGivesBackTheConsumedBytes : Obligations.EncodeGivesBackTheConsumedBytes :=
  fun op lo hi => ⟨wellFormed_decodeOpcode op lo hi, encode_decodeOpcode op lo hi⟩

/-- Settles O3: `decode` has one equation for the empty sequence and one for the others; a default of 00 is read alike
from an absent byte and from a zero. -/
theorem decodeIsTotalOnNonemptyBytes : Obligations.DecodeIsTotalOnNonemptyBytes :=
  ⟨rfl, fun op _ => ⟨_, rfl, wellFormed_decodeOpcode op _ _⟩, fun _ _ => ⟨rfl, rfl⟩⟩

/-- Settles O4: each word is evaluated. -/
theorem writtenOutWordsDecode : Obligations.WrittenOutWordsDecode :=
  ⟨rfl, rfl, rfl, rfl, rfl, rfl, rfl, rfl, rfl, rfl, rfl⟩

end Sys2Proof.Proofs
end

section
/-!
PROOFS. What a step does (42_driver.md section 1): the bytes it reads, the instruction it executes, its next state, and
that it is the driver's iteration.
-/

namespace Sys2Proof.Proofs

open Sys2Proof.Machine Sys2Proof.Claims

/-- The bytes a step reads, as many as the entry's length and the buffer allow, in ascending order (R44). -/
theorem fetchBytes_eq_map_read {s : State} (h : s.cur < s.len) :
    fetchBytes s =
      (List.range (min (lookup (s.mem.read s.cur)).length (s.len - s.cur))).map fun j => s.mem.read (s.cur + j) := by
  have hpos : 1 ≤ min (lookup (s.mem.read s.cur)).length (s.len - s.cur) :=
    Nat.le_min.mpr ⟨(lookup_length_bounds _).1, Nat.sub_pos_of_lt h⟩
  obtain ⟨n, hn⟩ := Nat.exists_eq_add_of_le' hpos
  rw [fetchBytes_of_lt h, operandReads_eq, hn, List.range_eq_range', List.range'_succ]
  rfl

/-- Settles O9: `fetchBytes_eq_map_read`, and no entry is longer than three bytes. -/
theorem stepReadsTheInstructionsBytesOnly : Obligations.StepReadsTheInstructionsBytesOnly := by
  intro s h
  have hbytes := fetchBytes_eq_map_read h
  refine ⟨hbytes, ?_⟩
  rw [hbytes, List.length_map, List.length_range]
  exact (Nat.min_le_left _ _).trans (lookup_length_bounds _).2

/-- Byte `j` of the instruction as a step reads it is the buffer's, or 00 beyond the buffer (R121). -/
theorem getD_fetchBytes {s : State} {j : Nat} (h : s.cur < s.len)
    (hj : j < (lookup (s.mem.read s.cur)).length) :
    (fetchBytes s).getD j 0 = shown s j (s.mem.read (s.cur + j)) := by
  rw [fetchBytes_eq_map_read h, shown]
  by_cases hlen : s.cur + j < s.len
  · rw [if_pos hlen, List.getD_eq_getElem _ _ (by simp; omega), List.getElem_map, List.getElem_range]
  · rw [if_neg hlen, List.getD_eq_default _ _ (by simp; omega)]

/-- A decoded instruction depends on the operand bytes only as far as its entry's length. -/
theorem decodeOpcode_congr {op lo hi lo' hi' : Byte} (h1 : 1 < (lookup op).length → lo = lo')
    (h2 : 2 < (lookup op).length → hi = hi') : decodeOpcode op lo hi = decodeOpcode op lo' hi' :=
  withOperand_congr _ (by rwa [entryOf_opcodeMap]) (by rwa [entryOf_opcodeMap])

/-- The instruction a step executes, from the three bytes at the cursor, those beyond the buffer counting as 00. -/
theorem step_eq_exec_shown {s : State} (h : s.cur < s.len) :
    step s = exec (decodeOpcode (s.mem.read s.cur) (shown s 1 (s.mem.read (s.cur + 1)))
      (shown s 2 (s.mem.read (s.cur + 2)))) s := by
  rw [step_of_lt h, decodeOpcode_congr (getD_fetchBytes h) (getD_fetchBytes h)]

/-- The bytes read decode to the instruction that is executed. -/
theorem step_eq_exec_of_decode {s : State} {i : Instr} (h : s.cur < s.len) (hi : decode (fetchBytes s) = .ok i) :
    step s = exec i s := by
  rw [fetchBytes_of_lt h] at hi
  rw [step_of_lt h, fetchBytes_of_lt h, ← Except.ok.inj hi]
  rfl

/-- Settles O8: `step_eq_exec_shown` and `step_eq_exec_of_decode`. -/
theorem stepExecutesTheDecodedInstruction : Obligations.StepExecutesTheDecodedInstruction :=
  fun _ h => ⟨step_eq_exec_shown h, fun _ hi => step_eq_exec_of_decode h hi⟩

/-- The effect of a well-formed entry depends on the bytes only through those the instruction has and the buffer holds. -/
theorem runEntry_congr {d : Descriptor} (hd : d.wellFormed = true) {bytes bytes' : List Byte} (s : State)
    (h : ∀ j, j < d.length → bytes.getD j 0 = bytes'.getD j 0) : runEntry d bytes s = runEntry d bytes' s := by
  have hline : ∀ offset avail, formatLine d offset avail bytes = formatLine d offset avail bytes' := fun _ _ =>
    formatLine_congr_of_wellFormed hd fun j _ hj => h j hj
  simp only [runEntry, renderEntry, format, hline]

/-- The decoded instruction encodes to the bytes read, filled up with 00 (R121). -/
theorem getD_encode_decodeOpcode (op : Byte) (bytes : List Byte) {j : Nat} (h : j < (lookup op).length) :
    (encode (decodeOpcode op ((op :: bytes).getD 1 0) ((op :: bytes).getD 2 0))).getD j 0 = (op :: bytes).getD j 0 := by
  have hj : j < 3 := h.trans_le (lookup_length_bounds op).2
  rw [encode_decodeOpcode, getD_take_of_lt h]
  interval_cases j <;> rfl

/-- Decoding and executing has the effect of the ROM's entry on the bytes read. -/
theorem step_eq_runEntry {s : State} (h : s.cur < s.len) :
    step s = runEntry (lookup (s.mem.read s.cur)) (fetchBytes s) s := by
  rw [step_of_lt h, exec_eq_runEntry _ _ (wellFormed_decodeOpcode ..), entryOf_decodeOpcode]
  refine runEntry_congr (lookup_wellFormed _) s fun j hj => ?_
  rw [fetchBytes_of_lt h]
  exact getD_encode_decodeOpcode _ _ hj

/-- Settles O10: inside the buffer both are `runEntry` of the opcode's entry, elsewhere both are not enabled. -/
theorem stepIsTheDriversIteration : Obligations.StepIsTheDriversIteration := by
  intro s
  rcases Nat.lt_or_ge s.cur s.len with h | h
  · rw [step_eq_runEntry h, driverStep_of_lt h]
  · rw [step_of_le h, driverStep_of_le h]

/-- The line a step writes in a state (R153). -/
def stepLine (s : State) : Line :=
  formatLine (lookup (s.mem.read s.cur)) s.cur (s.len - s.cur) (fetchBytes s)

/-- How far a step moves the cursor: the entry's length, clamped to the bytes left (R137, decision D7). -/
def stepAdvance (s : State) : Nat := min (lookup (s.mem.read s.cur)).length (s.len - s.cur)

theorem stepAdvance_bounds {s : State} (h : s.cur < s.len) :
    1 ≤ stepAdvance s ∧ stepAdvance s ≤ 3 ∧ s.cur + stepAdvance s ≤ s.len := by
  have hlength := lookup_length_bounds (s.mem.read s.cur)
  unfold stepAdvance
  omega

/-- The state after an enabled step: one line more, the cursor moved on, and nothing else changed. -/
def nextState (s : State) : State :=
  { mem := s.mem, len := s.len, cur := s.cur + stepAdvance s, out := s.out ++ [stepLine s] }

@[simp] theorem nextState_mem (s : State) : (nextState s).mem = s.mem := rfl
@[simp] theorem nextState_len (s : State) : (nextState s).len = s.len := rfl
@[simp] theorem nextState_cur (s : State) : (nextState s).cur = s.cur + stepAdvance s := rfl
@[simp] theorem nextState_out (s : State) : (nextState s).out = s.out ++ [stepLine s] := rfl

/-- What a step does where it is enabled. -/
theorem step_eq_nextState {s : State} (h : s.Enabled) : step s = .next (nextState s) := by
  rw [step_eq_runEntry h.1, runEntry_of_enabled _ _ h]
  rfl

/-- Inversion of `step`: a step that answers was enabled, and it answered the next state. -/
theorem step_cases {s t : State} (h : step s = .next t) : s.Enabled ∧ t = nextState s := by
  rw [step_eq_runEntry (cur_lt_len_of_step h)] at h
  exact runEntry_cases h

end Sys2Proof.Proofs
end

section
/-!
PROOFS. The frame of a step and of a run (10_state.md, 20_memory.md section 7, 42_driver.md section 2): what stays, how the
cursor moves, and the state invariant.
-/

namespace Sys2Proof.Proofs

open Sys2Proof.Machine

/-- The buffer a pass was given is its buffer after every step. -/
theorem step_buffer {s t : State} (h : step s = .next t) : t.buffer = s.buffer := by
  obtain ⟨_, rfl⟩ := step_cases h
  rfl

/-- Settles O12: the cursor moves by `stepAdvance`. -/
theorem stepAdvancesWithinTheBuffer : Obligations.StepAdvancesWithinTheBuffer := by
  intro s t h
  obtain ⟨⟨hlt, _⟩, rfl⟩ := step_cases h
  have hadvance := stepAdvance_bounds hlt
  simp only [nextState_cur, nextState_len]
  omega

/-- Settles O16: length and memory stay, and the cursor stays within the length. -/
theorem stepKeepsTheStateInvariant : Obligations.StepKeepsTheStateInvariant := by
  intro s t hinv h
  obtain ⟨hmax, _, hwf, hbelow⟩ := hinv
  obtain ⟨⟨hlt, _⟩, rfl⟩ := step_cases h
  obtain ⟨_, _, hcur⟩ := stepAdvance_bounds hlt
  exact ⟨hmax, hcur, hwf, hbelow⟩

/-- A run of `k + 1` steps goes on from the first step's state. -/
theorem run_succ_of_step {s t : State} (h : step s = .next t) (k : Nat) : core.run (k + 1) s = core.run k t := by
  rw [run_succ, h]

theorem run_succ_of_refused {s : State} {r : Refusal} (h : step s = .refused r) (k : Nat) :
    core.run (k + 1) s = .refused r := by
  rw [run_succ, h]

/-- Inversion of a run: its first step answered, and the rest of the run goes on from there. -/
theorem run_succ_cases {s t : State} {k : Nat} (h : core.run (k + 1) s = .next t) :
    ∃ u, step s = .next u ∧ core.run k u = .next t := by
  rw [run_succ] at h
  cases hstep : step s with
  | next u => exact ⟨u, rfl, by rwa [hstep] at h⟩
  | fault r => exact nomatch r
  | refused r => rw [hstep] at h; cases h

/-- What every step keeps holds after any number of steps. -/
theorem run_keeps {P : State → Prop} (hstep : ∀ s t, P s → step s = .next t → P t) :
    ∀ (k : Nat) {s t : State}, P s → core.run k s = .next t → P t
  | 0, _, _, hs, h => Host.Outcome.next.inj h ▸ hs
  | k + 1, _, _, hs, h =>
    have ⟨u, hu, hrest⟩ := run_succ_cases h
    run_keeps hstep k (hstep _ u hs hu) hrest

theorem run_buffer {k : Nat} {s t : State} (h : core.run k s = .next t) : t.buffer = s.buffer :=
  run_keeps (P := fun u => u.buffer = s.buffer) (fun _ _ hu hstep => (step_buffer hstep).trans hu) k rfl h

theorem readByte_eq_of_buffer_eq {s t : State} (h : t.buffer = s.buffer) (a : Nat) : t.readByte a = s.readByte a :=
  congrArg (·.readByte a) h

/-- Inversion of `exec`: the line of the instruction's entry is appended, the cursor moves, and nothing else changes. -/
theorem exec_next {i : Instr} {s t : State} (h : exec i s = .next t) :
    t = { mem := s.mem, len := s.len, cur := s.cur + min (entryOf i).length (s.len - s.cur),
          out := s.out ++ [formatLine (entryOf i) s.cur (s.len - s.cur) (encode i)] } :=
  (runEntry_cases (exec_cases h).2).2

/-- Settles O14: `exec_next`. -/
theorem everyInstructionAppendsOneLine : Obligations.EveryInstructionAppendsOneLine := by
  intro i s t h
  obtain rfl := exec_next h
  exact ⟨_, rfl⟩

/-- Settles O13: `exec_next` for one instruction, `run_buffer` for a run. -/
theorem bufferIsNeverWritten : Obligations.BufferIsNeverWritten := by
  refine ⟨fun i s t h => ?_, fun k s t h => readByte_eq_of_buffer_eq (run_buffer h)⟩
  obtain rfl := exec_next h
  exact ⟨rfl, rfl, readByte_eq_of_buffer_eq rfl⟩

/-- Settles O19: the cursor moves by the entry's length clamped to the bytes left, and at the end no step is enabled. -/
theorem truncationEndsThePass : Obligations.TruncationEndsThePass := by
  intro s h
  have hstep := step_eq_nextState h
  refine ⟨_, hstep, fun htruncated => ?_, fun hcomplete => ?_⟩
  · have hend : (nextState s).cur = (nextState s).len := by
      rw [nextState_cur, stepAdvance, Nat.min_eq_right htruncated.le, nextState_len, Nat.add_sub_of_le h.1.le]
    exact ⟨hend, step_of_le hend.ge⟩
  · rw [nextState_cur, stepAdvance, Nat.min_eq_left hcomplete]

/-- Settles O22: both states fetch the same bytes, so they have the same line and the same advance. -/
theorem otherBytesDoNotAffectAStep : Obligations.OtherBytesDoNotAffectAStep := by
  intro s t mem' h hagree
  obtain ⟨henabled, rfl⟩ := step_cases h
  have hop : mem'.read s.cur = s.mem.read s.cur := hagree 0 (stepAdvance_bounds henabled.1).1
  have hbytes : fetchBytes { s with mem := mem' } = fetchBytes s := by
    rw [fetchBytes_eq_map_read henabled.1, fetchBytes_eq_map_read (s := { s with mem := mem' }) henabled.1]
    simp only [hop]
    exact List.map_congr_left fun j hj => hagree j (List.mem_range.mp hj)
  rw [step_eq_nextState (s := { s with mem := mem' }) henabled]
  simp only [nextState, stepLine, stepAdvance, hop, hbytes]

end Sys2Proof.Proofs
end

section
/-!
PROOFS. The columns of a line (41_formatter.md section 2): where each field stands, and which lines show the sentinel.
-/

namespace Sys2Proof.Proofs

open Sys2Proof.Machine Sys2Proof.Claims

/-- The fields of the byte columns fill columns 5 to 13. -/
theorem length_byteColumns {d : Descriptor} (h : d.length ≤ 3) (avail : Nat) (b : List Byte) :
    (rawByteField d.length avail b ++ paddingField d.length).length = 9 := by
  rw [List.length_append, length_rawByteField, length_paddingField]
  omega

/-- From column 5 on a line holds the byte columns and the tail. -/
theorem drop_five_formatLine (d : Descriptor) (offset avail : Nat) (b : List Byte) :
    (formatLine d offset avail b).drop 5 =
      (rawByteField d.length avail b ++ paddingField d.length) ++
        tailField d (availableByte avail b 1) (availableByte avail b 2) := by
  rw [formatLine, List.append_assoc (offsetField offset), List.append_assoc (offsetField offset)]
  exact List.drop_left' (length_offsetField offset)

/-- From column 14 on a line holds its tail. -/
theorem drop_fourteen_formatLine {d : Descriptor} (h : d.length ≤ 3) (offset avail : Nat) (b : List Byte) :
    (formatLine d offset avail b).drop 14 = tailField d (availableByte avail b 1) (availableByte avail b 2) := by
  rw [show 14 = 5 + 9 from rfl, ← List.drop_drop, drop_five_formatLine]
  exact List.drop_left' (length_byteColumns h avail b)

theorem length_formatLine {d : Descriptor} (h : d.length ≤ 3) (offset avail : Nat) (b : List Byte) :
    (formatLine d offset avail b).length =
      14 + (tailField d (availableByte avail b 1) (availableByte avail b 2)).length := by
  simp only [formatLine, List.length_append, length_offsetField, length_rawByteField, length_paddingField]
  omega

theorem tailField_of_none {d : Descriptor} (h : d.operandClass = .none) (lo hi : Byte) :
    tailField d lo hi = d.mnemonic :=
  if_pos h

theorem tailField_of_ne_none {d : Descriptor} (h : d.operandClass ≠ .none) (lo hi : Byte) :
    tailField d lo hi = padRight d.mnemonic 4 ++ spaces 3 ++ operandText d lo hi :=
  if_neg h

/-- Settles O31: the byte columns are the nine characters after the offset field, `rawByteField` first. -/
theorem bytesAndPaddingFillNineColumns : Obligations.BytesAndPaddingFillNineColumns := by
  intro d offset avail b f _ hd h
  obtain ⟨_, _, hline, _, _⟩ := format_ok_cases h
  have hcolumns : (f.line.drop 5).take 9 = rawByteField d.length avail b ++ paddingField d.length := by
    rw [hline, drop_five_formatLine]
    exact List.take_left' (length_byteColumns hd avail b)
  refine ⟨?_, ?_, ?_⟩
  · rw [hcolumns, length_byteColumns hd]
  · rw [hcolumns]
    exact List.drop_left' (length_rawByteField _ avail b)
  · rw [hline, drop_five_formatLine, List.append_assoc]
    exact List.take_left' (length_rawByteField _ avail b)

/-- Mnemonics have two to four characters (R105, R108). -/
theorem lookup_mnemonic_length (op : Byte) : 2 ≤ (lookup op).mnemonic.length ∧ (lookup op).mnemonic.length ≤ 4 := by
  revert op; decide

theorem stepLine_drop_fourteen (s : State) :
    (stepLine s).drop 14 =
      tailField (lookup (s.mem.read s.cur)) (availableByte (s.len - s.cur) (fetchBytes s) 1)
        (availableByte (s.len - s.cur) (fetchBytes s) 2) :=
  drop_fourteen_formatLine (lookup_length_bounds _).2 _ _ _

/-- An available byte of the instruction is the buffer's, and a missing one is shown as 00. -/
theorem availableByte_fetchBytes {s : State} {j : Nat} (h : s.cur < s.len)
    (hj : j < (lookup (s.mem.read s.cur)).length) :
    availableByte (s.len - s.cur) (fetchBytes s) j = shown s j (s.mem.read (s.cur + j)) := by
  rcases Nat.lt_or_ge j (s.len - s.cur) with hlt | hge
  · rw [availableByte_of_lt hlt, getD_fetchBytes h hj]
  · rw [availableByte_of_le hge, shown, if_neg (by omega)]

/-- The operand a step shows is made from the bytes at the cursor, those beyond the buffer counting as 00. -/
theorem operandText_fetchBytes {s : State} (h : s.cur < s.len) :
    operandText (lookup (s.mem.read s.cur)) (availableByte (s.len - s.cur) (fetchBytes s) 1)
        (availableByte (s.len - s.cur) (fetchBytes s) 2) =
      operandText (lookup (s.mem.read s.cur)) (shown s 1 (s.mem.read (s.cur + 1)))
        (shown s 2 (s.mem.read (s.cur + 2))) :=
  operandText_congr (lookup_wellFormed _) (availableByte_fetchBytes h) (availableByte_fetchBytes h)

/-- The padded mnemonic and the separator fill columns 14 to 20. -/
theorem length_mnemonicColumns (op : Byte) : (padRight (lookup op).mnemonic 4 ++ spaces 3).length = 7 := by
  rw [List.length_append, length_padRight, length_spaces, Nat.max_eq_right (lookup_mnemonic_length op).2]

theorem stepLine_drop_twentyone {s : State} (h : (lookup (s.mem.read s.cur)).operandClass ≠ .none) :
    (stepLine s).drop 21 =
      operandText (lookup (s.mem.read s.cur)) (availableByte (s.len - s.cur) (fetchBytes s) 1)
        (availableByte (s.len - s.cur) (fetchBytes s) 2) := by
  rw [show 21 = 14 + 7 from rfl, ← List.drop_drop, stepLine_drop_fourteen, tailField_of_ne_none h]
  exact List.drop_left' (length_mnemonicColumns _)

/-- Settles O32: column 14 begins the tail; in a line of class None the tail is the mnemonic, in any other the seven mnemonic
columns stand before the operand. -/
theorem mnemonicAndOperandStandInTheirColumns : Obligations.MnemonicAndOperandStandInTheirColumns := by
  intro s h
  have hlength := length_formatLine (lookup_length_bounds (s.mem.read s.cur)).2 s.cur (s.len - s.cur) (fetchBytes s)
  refine ⟨_, _, step_eq_nextState h, rfl, ?_, fun hnone => ?_, fun hoperand => ?_⟩
  · rw [stepLine_drop_fourteen]
    by_cases hnone : (lookup (s.mem.read s.cur)).operandClass = .none
    · rw [tailField_of_none hnone, List.take_length]
    · rw [tailField_of_ne_none hnone, padRight, List.append_assoc, List.append_assoc]
      exact List.take_left
  · rw [stepLine, hlength, tailField_of_none hnone]
  · have hdrop := stepLine_drop_twentyone hoperand
    refine ⟨hdrop.trans (operandText_fetchBytes h.1), ?_⟩
    rw [hdrop, stepLine, hlength, tailField_of_ne_none hoperand, List.length_append, length_mnemonicColumns]
    omega

/-- The sentinel's text is the ROM's for exactly the twelve opcodes (R104, R105). -/
theorem lookup_shows_sentinel_iff (op : Byte) :
    ((lookup op).operandClass = .none ∧ (lookup op).mnemonic = "--".toList) ↔ op ∈ undefinedSet := by
  revert op; decide

/-- The tail of a line is `--` only for an entry of class None with that mnemonic; any other tail is longer. -/
theorem tailField_eq_sentinel_iff (op lo hi : Byte) :
    tailField (lookup op) lo hi = "--".toList ↔
      (lookup op).operandClass = .none ∧ (lookup op).mnemonic = "--".toList := by
  by_cases hnone : (lookup op).operandClass = .none
  · rw [tailField_of_none hnone]
    exact (and_iff_right hnone).symm
  · refine iff_of_false (fun htail => ?_) fun h => hnone h.1
    have hlength := congrArg List.length htail
    rw [tailField_of_ne_none hnone, List.length_append, length_mnemonicColumns] at hlength
    have hsentinel : "--".toList.length = 2 := rfl
    omega

/-- Settles O7: the tail of the step's line is `--` for the sentinel's entry only. -/
theorem sentinelIsShownForExactlyTheTwelve : Obligations.SentinelIsShownForExactlyTheTwelve := by
  intro s h
  refine ⟨_, _, step_eq_nextState h, rfl, ?_⟩
  rw [stepLine_drop_fourteen, tailField_eq_sentinel_iff, lookup_shows_sentinel_iff]

end Sys2Proof.Proofs
end

section
/-!
PROOFS. The text a step writes (41_formatter.md section 5): the characters and the length of a line, the output invariant,
and the stream.
-/

namespace Sys2Proof.Proofs

open Sys2Proof.Machine

/-- A text whose characters may all stand in a line (R140). -/
def InLineChars (t : Text) : Prop := ∀ c ∈ t, c ∈ lineChars

theorem inLineChars_append {t u : Text} : InLineChars (t ++ u) ↔ InLineChars t ∧ InLineChars u :=
  List.forall_mem_append

theorem inLineChars_cons {c : Char} {t : Text} : InLineChars (c :: t) ↔ c ∈ lineChars ∧ InLineChars t :=
  List.forall_mem_cons

theorem inLineChars_nil : InLineChars [] := List.forall_mem_nil _

theorem inLineChars_spaces (n : Nat) : InLineChars (spaces n) := by
  intro c hc
  rw [List.eq_of_mem_replicate hc]
  decide

theorem inLineChars_padRight {t : Text} (h : InLineChars t) (w : Nat) : InLineChars (padRight t w) :=
  inLineChars_append.mpr ⟨h, inLineChars_spaces _⟩

theorem hexDigit_lower_mem (n : BitVec 4) : hexDigit .lower n ∈ lineChars := by
  revert n; decide

theorem inLineChars_hex2_lower (b : Byte) : InLineChars (hex2 .lower b) :=
  inLineChars_cons.mpr ⟨hexDigit_lower_mem _, inLineChars_cons.mpr ⟨hexDigit_lower_mem _, inLineChars_nil⟩⟩

theorem inLineChars_hex2_space (b : Byte) : InLineChars (hex2 .lower b ++ [' ']) :=
  inLineChars_append.mpr ⟨inLineChars_hex2_lower b, inLineChars_spaces 1⟩

theorem inLineChars_offsetField (offset : Nat) : InLineChars (offsetField offset) := by
  rw [offsetField, hex4, List.append_assoc]
  exact inLineChars_append.mpr ⟨inLineChars_hex2_lower _, inLineChars_hex2_space _⟩

theorem inLineChars_rawByteField (length avail : Nat) (b : List Byte) : InLineChars (rawByteField length avail b) := by
  intro c hc
  obtain ⟨i, _, hc⟩ := List.mem_flatMap.mp hc
  exact inLineChars_hex2_space _ c hc

theorem inLineChars_hexByteText (b : Byte) : InLineChars (hexByteText b) :=
  inLineChars_cons.mpr ⟨by decide, inLineChars_hex2_lower b⟩

theorem inLineChars_hexWordText (hi lo : Byte) : InLineChars (hexWordText hi lo) :=
  inLineChars_cons.mpr ⟨by decide, inLineChars_append.mpr ⟨inLineChars_hex2_lower hi, inLineChars_hex2_lower lo⟩⟩

/-- An operand's characters are those of the register names, hex digits, `$` and `,`. -/
theorem inLineChars_operandText {d : Descriptor} (h1 : InLineChars (registerText d.register1))
    (h2 : InLineChars (registerText d.register2)) (lo hi : Byte) : InLineChars (operandText d lo hi) := by
  have hcomma : ',' ∈ lineChars := by decide
  unfold operandText
  cases d.operandClass with
  | none => exact inLineChars_nil
  | singleRegister => exact h1
  | registerPair => exact inLineChars_append.mpr ⟨h1, inLineChars_cons.mpr ⟨hcomma, h2⟩⟩
  | immediate8ToRegister =>
    exact inLineChars_append.mpr ⟨h1, inLineChars_cons.mpr ⟨hcomma, inLineChars_hexByteText lo⟩⟩
  | immediate16ToRegister =>
    exact inLineChars_append.mpr ⟨h1, inLineChars_cons.mpr ⟨hcomma, inLineChars_hexWordText hi lo⟩⟩
  | immediate8Standalone => exact inLineChars_hexByteText lo
  | immediate16Standalone => exact inLineChars_hexWordText hi lo

/-- The check that an entry's mnemonic and register names are made of line characters. -/
def namesInLineChars (d : Descriptor) : Bool :=
  (d.mnemonic ++ registerText d.register1 ++ registerText d.register2).all lineChars.contains

theorem namesInLineChars_iff (d : Descriptor) :
    namesInLineChars d = true ↔
      (InLineChars d.mnemonic ∧ InLineChars (registerText d.register1)) ∧ InLineChars (registerText d.register2) := by
  simp only [namesInLineChars, List.all_eq_true, List.contains_iff_mem, ← inLineChars_append]
  rfl

/-- All 256 entries pass the check (R108). -/
theorem rom_all_namesInLineChars : rom.all namesInLineChars = true := by
  decide +kernel

theorem lookup_inLineChars (op : Byte) :
    (InLineChars (lookup op).mnemonic ∧ InLineChars (registerText (lookup op).register1)) ∧
      InLineChars (registerText (lookup op).register2) :=
  (namesInLineChars_iff _).mp (List.all_eq_true.mp rom_all_namesInLineChars _ (List.getElem_mem _))

theorem inLineChars_tailField (op lo hi : Byte) : InLineChars (tailField (lookup op) lo hi) := by
  obtain ⟨⟨hmnemonic, h1⟩, h2⟩ := lookup_inLineChars op
  by_cases hnone : (lookup op).operandClass = .none
  · rw [tailField_of_none hnone]
    exact hmnemonic
  · rw [tailField_of_ne_none hnone]
    exact inLineChars_append.mpr ⟨inLineChars_append.mpr ⟨inLineChars_padRight hmnemonic 4, inLineChars_spaces 3⟩,
      inLineChars_operandText h1 h2 lo hi⟩

theorem inLineChars_formatLine (op : Byte) (offset avail : Nat) (b : List Byte) :
    InLineChars (formatLine (lookup op) offset avail b) := by
  simp only [formatLine, paddingField, inLineChars_append]
  exact ⟨⟨⟨inLineChars_offsetField offset, inLineChars_rawByteField _ avail b⟩, inLineChars_spaces _⟩,
    inLineChars_tailField op _ _⟩

/-- How long an operand is does not depend on the bytes it shows. -/
theorem length_operandText (d : Descriptor) (lo hi : Byte) :
    (operandText d lo hi).length = (operandText d 0 0).length := by
  unfold operandText
  cases d.operandClass <;> simp only [List.length_append, List.length_cons] <;> rfl

/-- No operand of the ROM's entries is longer than `SP,$YYXX`. -/
theorem lookup_operandText_length (op lo hi : Byte) : (operandText (lookup op) lo hi).length ≤ 8 := by
  rw [length_operandText]
  revert op; decide

/-- A tail is a mnemonic, or the seven mnemonic columns and an operand. -/
theorem length_tailField_bounds (op lo hi : Byte) :
    2 ≤ (tailField (lookup op) lo hi).length ∧ (tailField (lookup op) lo hi).length ≤ 15 := by
  by_cases hnone : (lookup op).operandClass = .none
  · rw [tailField_of_none hnone]
    exact (lookup_mnemonic_length op).imp_right (·.trans (by decide))
  · have hoperand := lookup_operandText_length op lo hi
    rw [tailField_of_ne_none hnone, List.length_append, length_mnemonicColumns]
    omega

/-- Every line of a ROM entry is well formed (R140). -/
theorem lineOk_formatLine (op : Byte) (offset avail : Nat) (b : List Byte) :
    LineOk (formatLine (lookup op) offset avail b) := by
  have htail := length_tailField_bounds op (availableByte avail b 1) (availableByte avail b 2)
  have hlength := length_formatLine (lookup_length_bounds op).2 offset avail b
  exact ⟨by omega, by omega, inLineChars_formatLine op offset avail b⟩

theorem lineOk_stepLine (s : State) : LineOk (stepLine s) := lineOk_formatLine _ _ _ _

/-- Settles O18: the one new line is well formed, and the cursor moved by 1 to 3. -/
theorem stepKeepsTheOutputInvariant : Obligations.StepKeepsTheOutputInvariant := by
  intro s t hinv h
  obtain ⟨hlines, hmany, hfew⟩ := hinv
  obtain ⟨⟨hlt, _⟩, rfl⟩ := step_cases h
  obtain ⟨hone, hthree, _⟩ := stepAdvance_bounds hlt
  have hcount : (nextState s).out.length = s.out.length + 1 := by
    rw [nextState_out, List.length_append, List.length_singleton]
  refine ⟨fun line hline => ?_, ?_, ?_⟩
  · rcases List.mem_append.mp hline with hold | hnew
    · exact hlines line hold
    · rw [List.mem_singleton.mp hnew]
      exact lineOk_stepLine s
  · rw [hcount, nextState_cur]
    omega
  · rw [hcount, nextState_cur]
    omega

theorem streamText_append_singleton (out : List Line) (line : Line) :
    streamText (out ++ [line]) = streamText out ++ line ++ ['\n'] := by
  simp only [streamText, List.flatMap_append, List.flatMap_singleton, Config.newline, List.append_assoc]

/-- Settles O15: the step appends `stepLine`, whose characters are line characters, and LF is none of these. -/
theorem streamGrowsByTheLineAndOneNewline : Obligations.StreamGrowsByTheLineAndOneNewline := by
  intro s t h
  obtain ⟨_, rfl⟩ := step_cases h
  obtain ⟨_, _, hchars⟩ := lineOk_stepLine s
  exact ⟨_, fun hnewline => absurd (hchars _ hnewline) (by decide), streamText_append_singleton _ _⟩

/-- Settles O17: no line is written, the cursor and the length are 0, and no cell is listed. -/
theorem resetMeetsTheInvariants : Obligations.ResetMeetsTheInvariants :=
  ⟨⟨Nat.zero_le _, Nat.le_refl 0, rfl, rfl⟩, ⟨List.forall_mem_nil _, Nat.le_refl 0, Nat.le_refl 0⟩, rfl, rfl,
    step_of_le (Nat.le_refl 0)⟩

end Sys2Proof.Proofs
end

section
/-!
PROOFS. The pass (42_driver.md section 2, 70_reset_and_hazards.md): its start, its end, the listing it writes, a second
pass, and the driver that takes the parameters of a pass as arguments.
-/

namespace Sys2Proof.Proofs

open Sys2Proof.Machine Sys2Proof.Claims

/-- The state that a launch of an image starts in. -/
def launched (image : List Byte) : State := State.ofPass (Buffer.ofImage image) Progress.start

theorem launch_eq_launched {image : List Byte} (h : image.length ≤ Config.bufMax) :
    launch image = .next (launched image) :=
  launch_of_le h

/-- Inversion of `launch`: an image that is not refused is admitted. -/
theorem launch_cases {image : List Byte} {s : State} (h : launch image = .next s) :
    image.length ≤ Config.bufMax ∧ s = launched image := by
  rcases Nat.lt_or_ge Config.bufMax image.length with hgt | hle
  · rw [launch_of_gt hgt] at h
    cases h
  · rw [launch_eq_launched hle] at h
    exact ⟨hle, (Host.Outcome.next.inj h).symm⟩

theorem launched_inv {image : List Byte} (h : image.length ≤ Config.bufMax) : (launched image).Inv :=
  ⟨h, Nat.zero_le _, Memory.wf_writeBytes image [] 0 rfl,
    Memory.below_writeBytes image [] image.length 0 rfl (Nat.zero_add _).le⟩

theorem launched_outputInv (image : List Byte) : (launched image).OutputInv :=
  ⟨List.forall_mem_nil _, Nat.le_refl 0, Nat.le_refl 0⟩

theorem read_launched {image : List Byte} {a : Nat} (h : a < image.length) :
    (launched image).mem.read a = image[a] := by
  have hread := Memory.read_writeBytes_inside image [] 0 a rfl h
  rwa [Nat.zero_add] at hread

/-- The launched buffer reads as the image, at every offset. -/
theorem readByte_launched (image : List Byte) (a : Nat) : (launched image).readByte a = image[a]? := by
  rcases Nat.lt_or_ge a image.length with hlt | hge
  · rw [State.readByte_of_lt hlt, read_launched hlt, List.getElem?_eq_getElem hlt]
  · rw [State.readByte_of_le hge, List.getElem?_eq_none hge]

/-- Settles O23: `launched` is the state answered, and `launch_of_gt` the refusal. -/
theorem launchStartsAPassOverTheImage : Obligations.LaunchStartsAPassOverTheImage :=
  fun image => ⟨fun h => ⟨launched image, launch_eq_launched h, launched_inv h, launched_outputInv image, rfl, rfl, rfl,
    readByte_launched image⟩, launch_of_gt⟩

/-- Settles O24, by induction on the bytes left: every step takes at least one of them and at most three. -/
theorem everyPassEnds : Obligations.EveryPassEnds := by
  intro s hinv
  induction hn : s.len - s.cur using Nat.strong_induction_on generalizing s with
  | h n ih =>
    have ⟨hmax, hcur, _⟩ := hinv
    rcases Nat.lt_or_ge s.cur s.len with hlt | hend
    · have hstep := step_eq_nextState ⟨hlt, hmax⟩
      obtain ⟨hone, hthree, hlen⟩ := stepAdvance_bounds hlt
      obtain ⟨k, t, hk, hk3, hrun, hfinal, hout, hrefused⟩ :=
        ih _ (by rw [nextState_len, nextState_cur]; omega) _ (stepKeepsTheStateInvariant s _ hinv hstep) rfl
      rw [nextState_len, nextState_cur] at hk hk3
      rw [nextState_out, List.length_append, List.length_singleton] at hout
      exact ⟨k + 1, t, by omega, by omega, (run_succ_of_step hstep k).trans hrun, hfinal, by omega,
        (run_succ_of_step hstep (k + 1)).trans hrefused⟩
    · exact ⟨0, s, Nat.zero_le _, by omega, rfl, Nat.le_antisymm hcur hend, rfl,
        run_succ_of_refused (step_of_le hend) 0⟩

/-- The bytes from the cursor to the end of the buffer. -/
def bytesLeft (s : State) : List Byte := (List.range (s.len - s.cur)).map fun j => s.mem.read (s.cur + j)

theorem bytesLeft_of_le {s : State} (h : s.len ≤ s.cur) : bytesLeft s = [] := by
  rw [bytesLeft, Nat.sub_eq_zero_of_le h]
  rfl

@[simp] theorem length_bytesLeft (s : State) : (bytesLeft s).length = s.len - s.cur := by
  rw [bytesLeft, List.length_map, List.length_range]

theorem getElem_bytesLeft {s : State} {j : Nat} (h : j < (bytesLeft s).length) :
    (bytesLeft s)[j] = s.mem.read (s.cur + j) := by
  simp only [bytesLeft, List.getElem_map, List.getElem_range]

theorem getD_bytesLeft {s : State} {j : Nat} (h : j < s.len - s.cur) :
    (bytesLeft s).getD j 0 = s.mem.read (s.cur + j) := by
  rw [List.getD_eq_getElem _ _ (by rwa [length_bytesLeft]), getElem_bytesLeft]

/-- Inside the buffer the bytes left begin with the opcode. -/
theorem bytesLeft_eq_cons {s : State} (h : s.cur < s.len) :
    bytesLeft s = s.mem.read s.cur :: (bytesLeft s).tail := by
  obtain ⟨n, hn⟩ := Nat.exists_eq_add_of_le' (Nat.sub_pos_of_lt h)
  rw [bytesLeft, hn, List.range_eq_range', List.range'_succ]
  rfl

/-- A step's line is the formatter's for the bytes left. -/
theorem stepLine_eq_formatLine_bytesLeft {s : State} (h : s.cur < s.len) :
    stepLine s = formatLine (lookup (s.mem.read s.cur)) s.cur (s.len - s.cur) (bytesLeft s) := by
  refine formatLine_congr_of_wellFormed (lookup_wellFormed _) fun j havail hj => ?_
  rw [getD_fetchBytes h hj, shown, if_pos (by omega), getD_bytesLeft havail]

/-- A step drops its instruction's bytes from those left, all of them when it is truncated. -/
theorem bytesLeft_nextState (s : State) :
    bytesLeft (nextState s) = (bytesLeft s).drop (lookup (s.mem.read s.cur)).length := by
  have hlength : (bytesLeft (nextState s)).length = ((bytesLeft s).drop (lookup (s.mem.read s.cur)).length).length := by
    simp only [length_bytesLeft, List.length_drop, nextState_len, nextState_cur, stepAdvance]
    omega
  refine List.ext_getElem hlength fun j hj _ => ?_
  rw [length_bytesLeft, nextState_len, nextState_cur, stepAdvance] at hj
  rw [List.getElem_drop, getElem_bytesLeft, getElem_bytesLeft, nextState_mem, nextState_cur, stepAdvance,
    Nat.min_eq_left (by omega), Nat.add_assoc]

theorem listing_nil : ∀ fuel offset, listing fuel offset [] = []
  | 0, _ => rfl
  | _ + 1, _ => rfl

/-- The listing of the bytes left is the next line and the listing of what the step leaves. -/
theorem listing_succ_bytesLeft {s : State} (h : s.cur < s.len) (fuel : Nat) :
    listing (fuel + 1) s.cur (bytesLeft s) = stepLine s :: listing fuel (nextState s).cur (bytesLeft (nextState s)) := by
  have hlength : (bytesLeft s).tail.length + 1 = s.len - s.cur := by
    rw [List.length_tail, length_bytesLeft]
    omega
  have hrest : listing fuel (s.cur + (lookup (s.mem.read s.cur)).length) (bytesLeft (nextState s)) =
      listing fuel (nextState s).cur (bytesLeft (nextState s)) := by
    rcases Nat.le_total (lookup (s.mem.read s.cur)).length (s.len - s.cur) with hcomplete | htruncated
    · rw [nextState_cur, stepAdvance, Nat.min_eq_left hcomplete]
    · have hend : (nextState s).len ≤ (nextState s).cur := by
        rw [nextState_len, nextState_cur, stepAdvance, Nat.min_eq_right htruncated]
        omega
      rw [bytesLeft_of_le hend, listing_nil, listing_nil]
  rw [stepLine_eq_formatLine_bytesLeft h, ← hrest, bytesLeft_nextState, bytesLeft_eq_cons h, listing, hlength]

/-- From a state within an admitted buffer the pass appends the listing of the bytes left. -/
theorem pass_writes_listing : ∀ (fuel : Nat) {s : State}, s.len - s.cur ≤ fuel → s.cur ≤ s.len → s.len ≤ Config.bufMax →
    ∃ k t, core.run k s = .next t ∧ t.cur = s.len ∧ t.out = s.out ++ listing fuel s.cur (bytesLeft s) := by
  intro fuel
  induction fuel with
  | zero =>
    intro s hfuel hcur _
    exact ⟨0, s, rfl, by omega, (List.append_nil _).symm⟩
  | succ fuel ih =>
    intro s hfuel hcur hmax
    rcases Nat.lt_or_ge s.cur s.len with hlt | hend
    · obtain ⟨hone, _, hlen⟩ := stepAdvance_bounds hlt
      obtain ⟨k, t, hrun, hfinal, hout⟩ :=
        ih (s := nextState s) (by rw [nextState_len, nextState_cur]; omega) hlen hmax
      refine ⟨k + 1, t, (run_succ_of_step (step_eq_nextState ⟨hlt, hmax⟩) k).trans hrun, hfinal, ?_⟩
      rw [hout, listing_succ_bytesLeft hlt, nextState_out, List.append_assoc, List.singleton_append]
    · refine ⟨0, s, rfl, by omega, ?_⟩
      rw [bytesLeft_of_le hend, listing_nil, List.append_nil]

theorem bytesLeft_launched (image : List Byte) : bytesLeft (launched image) = image := by
  refine List.ext_getElem (length_bytesLeft _) fun j _ hj => ?_
  have hcur : (launched image).cur + j = j := Nat.zero_add j
  rw [getElem_bytesLeft, hcur, read_launched hj]

/-- Settles O25: `pass_writes_listing` from the launched state, where the bytes left are the image. -/
theorem passWritesTheListing : Obligations.PassWritesTheListing := by
  intro image h
  obtain ⟨k, t, hrun, hfinal, hout⟩ :=
    pass_writes_listing image.length (s := launched image) (Nat.le_refl _) (Nat.zero_le _) h
  rw [bytesLeft_launched] at hout
  exact ⟨_, k, t, launch_eq_launched h, hrun, hfinal, hout⟩

/-- Settles O26: a restart depends on the buffer only, which the run has left as the launch made it. -/
theorem secondPassRepeatsTheFirst : Obligations.SecondPassRepeatsTheFirst := by
  intro image s t k hlaunch hrun _
  obtain ⟨_, rfl⟩ := launch_cases hlaunch
  have hrestart : t.restart = launched image := congrArg (State.ofPass · Progress.start) (run_buffer hrun)
  exact ⟨hrestart, by rw [hrestart, hrun]⟩

/-- A run of the machine is a run of the driver over the state's own buffer. -/
theorem run_eq_resume_passSteps : ∀ (k : Nat) (s : State),
    core.run k s = s.resume (passSteps lookup s.buffer k s.progress)
  | 0, _ => rfl
  | k + 1, s => by
    have hstep : step s = s.resume (passStep lookup s.buffer s.progress) := stepIsTheDriversIteration s
    rw [run_succ, passSteps_succ, hstep]
    cases passStep lookup s.buffer s.progress with
    | error r => rfl
    | ok p => exact run_eq_resume_passSteps k (State.ofPass s.buffer p)

/-- Settles O50: any packing gives the ROM's own contents, so this is `run_eq_resume_passSteps`. -/
theorem passTakesItsParametersAsArguments : Obligations.PassTakesItsParametersAsArguments := by
  intro encoding k s
  rw [run_eq_resume_passSteps, funext (lookupPacked_eq encoding)]
  rfl

/-- Three bytes from the place of a placement on lie within an admitted buffer. -/
theorem fetchSite_add_three_le (s : State) : fetchSite s + 3 ≤ Config.bufMax := by
  unfold fetchSite
  split
  · assumption
  · decide

/-- A placed byte lies within the buffer of the placement, and it is what the next step finds at its place. -/
theorem placed_byte {s : State} (h : s.mem.wf = true) (nbits w : Nat) {j : Nat} (hj : j < 3) :
    (s.withFetchWord nbits w).cur + j < (s.withFetchWord nbits w).len ∧
      (s.withFetchWord nbits w).mem.read ((s.withFetchWord nbits w).cur + j) = (tableBytes nbits w)[j] := by
  have hsite := fetchSite_add_three_le s
  have hlength : (tableBytes nbits w).length = 3 := rfl
  refine ⟨?_, Memory.read_writeBytes_inside (tableBytes nbits w) s.mem (fetchSite s) j h hj⟩
  simp only [State.withFetchWord, placeBytes_cur, placeBytes_len, hlength]
  omega

/-- Settles O27: the three bytes that the step finds at the cursor are the placed ones, and these decode to `i`. -/
theorem placedWordIsExecutedNext : Obligations.PlacedWordIsExecutedNext := by
  intro s nbits w i h hword
  have hi : decodeOpcode (tableByte nbits w 0) (tableByte nbits w 1) (tableByte nbits w 2) = i := Option.some.inj hword
  obtain ⟨hlt, hop⟩ := placed_byte h nbits w (j := 0) (by decide)
  obtain ⟨hlt1, hlo⟩ := placed_byte h nbits w (j := 1) (by decide)
  obtain ⟨hlt2, hhi⟩ := placed_byte h nbits w (j := 2) (by decide)
  rw [Nat.add_zero] at hlt hop
  rw [step_eq_exec_shown hlt, shown, if_pos hlt1, shown, if_pos hlt2, hop, hlo, hhi, ← hi]
  rfl

end Sys2Proof.Proofs
end

section
/-!
PROOFS. The ROM's register fields, the formatter's advance and the refusals (40_decode_table.md, 41_formatter.md section 4,
60_exceptions.md section 6).
-/

namespace Sys2Proof.Proofs

open Sys2Proof.Machine

theorem lookup_registers (op : Byte) :
    (lookup op).register1.isSome = classHasRegister1 (lookup op).operandClass ∧
      (lookup op).register2.isSome = classHasRegister2 (lookup op).operandClass := by
  have h := lookup_wellFormed op
  simp only [Descriptor.wellFormed, Bool.and_eq_true, beq_iff_eq] at h
  exact ⟨h.1.2, h.2⟩

theorem classHasRegister1_iff (c : OperandClass) :
    classHasRegister1 c = true ↔
      c ∈ [OperandClass.singleRegister, .registerPair, .immediate8ToRegister, .immediate16ToRegister] := by
  cases c <;> decide

theorem classHasRegister2_iff (c : OperandClass) : classHasRegister2 c = true ↔ c = .registerPair := by
  cases c <;> decide

/-- Settles O6: the register fields are those of the entry's class, whatever the packing. -/
theorem romNamesTheRegistersItsClassShows : Obligations.RomNamesTheRegistersItsClassShows := by
  intro encoding op
  obtain ⟨h1, h2⟩ := lookup_registers op
  simp only [lookupPacked_eq, h1, h2]
  exact ⟨classHasRegister1_iff _, classHasRegister2_iff _⟩

/-- Settles O30: `format_eq_ok`, and the two cases of the minimum. -/
theorem advanceIsTheClampedLength : Obligations.AdvanceIsTheClampedLength :=
  fun d offset _ b h hmax => ⟨_, format_eq_ok d b h hmax, rfl, fun hcomplete => Nat.min_eq_left hcomplete,
    fun htruncated => congrArg (offset + ·) (Nat.min_eq_right htruncated.le)⟩

/-- Settles O48: every well-formed instruction calls the formatter, which refuses a call with no byte. -/
theorem noByteIsRefused : Obligations.NoByteIsRefused := by
  refine ⟨format_no_byte, fun i s hi hend => ⟨?_, step_of_le hend⟩⟩
  rw [exec_eq_runEntry i s hi, runEntry_of_no_byte _ _ hend]

/-- Settles O49: a step inside the buffer calls the formatter, which refuses a buffer that is too long. -/
theorem longBuffersAndBufferWritesAreRefused : Obligations.LongBuffersAndBufferWritesAreRefused := by
  refine ⟨fun image h => launch_of_gt h, fun s hmax hlt => ?_, fun _ _ _ => rfl⟩
  rw [step_eq_runEntry hlt, runEntry_of_too_long _ _ hlt hmax]

end Sys2Proof.Proofs
end

section
/-!
PROOFS. The lines of the instructions (43_ops_00_3f.md to 46_ops_c0_ff.md): one lemma for each operand class says what an
enabled instruction of that class renders, and each statement about instructions is its rows' use of these lemmas.
-/

namespace Sys2Proof.Proofs

open Sys2Proof.Machine Sys2Proof.Claims

/-! ## What an instruction renders, by operand class -/

theorem availableByte_eq_shown (s : State) (b : List Byte) (j : Nat) :
    availableByte (s.len - s.cur) b j = shown s j (b.getD j 0) := by
  simp only [availableByte, shown, Nat.lt_sub_iff_add_lt']

/-- The formatter's line is the line of the statements, written down without it. -/
theorem formatLine_eq_lineText (d : Descriptor) (offset avail : Nat) (b : List Byte) :
    formatLine d offset avail b =
      lineText offset ((List.range d.length).map (availableByte avail b))
        (tailField d (availableByte avail b 1) (availableByte avail b 2)) := by
  have hpadding : 3 * (3 - d.length) = 9 - 3 * d.length := by omega
  have hpaddingField : paddingField d.length = spaces (9 - 3 * d.length) := congrArg spaces hpadding
  rw [formatLine, hpaddingField, lineText, List.length_map, List.length_range, List.flatMap_map]
  rfl

/-- Where a step is enabled, a well-formed instruction renders the bytes of its encoding, those beyond the buffer shown as
00, and the tail of its entry. -/
theorem renders_encode {i : Instr} {s : State} (hi : i.wellFormed = true) (h : s.Enabled) :
    Renders i s ((List.range (entryOf i).length).map fun j => shown s j ((encode i).getD j 0))
      (tailField (entryOf i) (shown s 1 ((encode i).getD 1 0)) (shown s 2 ((encode i).getD 2 0))) := by
  rw [Renders, exec_of_enabled hi h, formatLine_eq_lineText, List.length_map, List.length_range]
  simp only [funext (availableByte_eq_shown s (encode i))]

theorem shown_zero {s : State} (h : s.cur < s.len) (b : Byte) : shown s 0 b = b := if_pos h

theorem shown_absent (s : State) (j : Nat) : shown s j 0 = 0 := ite_self _

/-- The low byte of an immediate, as the encoder cuts it out and as the statements compute it. -/
theorem extractLsb_low (imm : Word16) : imm.extractLsb' 0 8 = lowByte imm := by
  apply BitVec.eq_of_toNat_eq
  rw [BitVec.extractLsb'_toNat, lowByte, BitVec.toNat_ofNat, Nat.mod_mod]
  rfl

theorem extractLsb_high (imm : Word16) : imm.extractLsb' 8 8 = highByte imm := by
  apply BitVec.eq_of_toNat_eq
  rw [BitVec.extractLsb'_toNat, highByte, BitVec.toNat_ofNat, Nat.shiftRight_eq_div_pow]

section RendersByClass

variable {i : Instr} {s : State} {op b lo hi : Byte} {imm : Word16} {mnemonic : String} {r r' : Text}
variable (h : s.Enabled) (hwf : i.wellFormed = true)

include h hwf

theorem renders_one_byte (hlength : (entryOf i).length = 1) (hbytes : encode i = [op]) :
    Renders i s [op] (tailField (entryOf i) 0 0) := by
  have hrenders := renders_encode hwf h
  rw [hlength, hbytes] at hrenders
  change Renders i s [shown s 0 op] (tailField (entryOf i) (shown s 1 0) (shown s 2 0)) at hrenders
  rwa [shown_zero h.1, shown_absent, shown_absent] at hrenders

theorem renders_two_bytes (hlength : (entryOf i).length = 2) (hbytes : encode i = [op, b]) :
    Renders i s [op, shown s 1 b] (tailField (entryOf i) (shown s 1 b) 0) := by
  have hrenders := renders_encode hwf h
  rw [hlength, hbytes] at hrenders
  change Renders i s [shown s 0 op, shown s 1 b] (tailField (entryOf i) (shown s 1 b) (shown s 2 0)) at hrenders
  rwa [shown_zero h.1, shown_absent] at hrenders

theorem renders_three_bytes (hlength : (entryOf i).length = 3)
    (hbytes : encode i = [op, imm.extractLsb' 0 8, imm.extractLsb' 8 8]) :
    Renders i s [op, shown s 1 (lowByte imm), shown s 2 (highByte imm)]
      (tailField (entryOf i) (shown s 1 (lowByte imm)) (shown s 2 (highByte imm))) := by
  rw [extractLsb_low, extractLsb_high] at hbytes
  have hrenders := renders_encode hwf h
  rw [hlength, hbytes] at hrenders
  change Renders i s [shown s 0 op, shown s 1 (lowByte imm), shown s 2 (highByte imm)]
    (tailField (entryOf i) (shown s 1 (lowByte imm)) (shown s 2 (highByte imm))) at hrenders
  rwa [shown_zero h.1] at hrenders

/-- Class None: the line ends with the mnemonic (R126, R134, decision D4). -/
theorem renders_none (hentry : entryOf i = entryNone mnemonic) (hbytes : encode i = [op]) :
    Renders i s [op] mnemonic.toList := by
  have hrenders := renders_one_byte h hwf (by rw [hentry]; rfl) hbytes
  rwa [hentry] at hrenders

/-- Class SingleRegister: the register's name (R128). -/
theorem renders_register (hentry : entryOf i = entryRegister mnemonic r) (hbytes : encode i = [op]) :
    Renders i s [op] (operandTail mnemonic r) := by
  have hrenders := renders_one_byte h hwf (by rw [hentry]; rfl) hbytes
  rwa [hentry] at hrenders

/-- Class RegisterPair: both names, a comma between them (R129). -/
theorem renders_registerPair (hentry : entryOf i = entryRegisterPair mnemonic r r') (hbytes : encode i = [op]) :
    Renders i s [op] (operandTail mnemonic (r ++ ",".toList ++ r')) := by
  have hrenders := renders_one_byte h hwf (by rw [hentry]; rfl) hbytes
  rw [List.append_assoc]
  rwa [hentry] at hrenders

/-- Class Immediate8Standalone: the immediate byte (R132). -/
theorem renders_imm8 (hentry : entryOf i = entryImm8 mnemonic) (hbytes : encode i = [op, b]) :
    Renders i s [op, shown s 1 b] (operandTail mnemonic (byteOperand (shown s 1 b))) := by
  have hrenders := renders_two_bytes h hwf (by rw [hentry]; rfl) hbytes
  rwa [hentry] at hrenders

/-- Class Immediate8ToRegister: the register's name and the immediate byte (R130). -/
theorem renders_imm8ToRegister (hentry : entryOf i = entryImm8ToRegister mnemonic r) (hbytes : encode i = [op, b]) :
    Renders i s [op, shown s 1 b] (operandTail mnemonic (r ++ ",".toList ++ byteOperand (shown s 1 b))) := by
  have hrenders := renders_two_bytes h hwf (by rw [hentry]; rfl) hbytes
  rw [List.append_assoc]
  rwa [hentry] at hrenders

/-- Class Immediate16Standalone: the 16-bit immediate, high byte first (R133). -/
theorem renders_imm16 (hentry : entryOf i = entryImm16 mnemonic)
    (hbytes : encode i = [op, imm.extractLsb' 0 8, imm.extractLsb' 8 8]) :
    Renders i s [op, shown s 1 (lowByte imm), shown s 2 (highByte imm)]
      (operandTail mnemonic (wordOperand (shown s 1 (lowByte imm)) (shown s 2 (highByte imm)))) := by
  have hrenders := renders_three_bytes h hwf (by rw [hentry]; rfl) hbytes
  rwa [hentry] at hrenders

/-- Class Immediate16ToRegister: the register's name and the 16-bit immediate, high byte first (R131). -/
theorem renders_imm16ToRegister (hentry : entryOf i = entryImm16ToRegister mnemonic r)
    (hbytes : encode i = [op, imm.extractLsb' 0 8, imm.extractLsb' 8 8]) :
    Renders i s [op, shown s 1 (lowByte imm), shown s 2 (highByte imm)]
      (operandTail mnemonic
        (r ++ ",".toList ++ wordOperand (shown s 1 (lowByte imm)) (shown s 2 (highByte imm)))) := by
  have hrenders := renders_three_bytes h hwf (by rw [hentry]; rfl) hbytes
  rw [List.append_assoc]
  rwa [hentry] at hrenders

end RendersByClass

/-! ## The operand tables of the statements list the model's codes and names -/

theorem registers_spec {r : Reg8} {n : Nat} {name : String} (h : (r, n, name) ∈ registers) :
    n = r.code ∧ name.toList = r.name := by
  have hrows : ∀ row ∈ registers, row.2.1 = row.1.code ∧ row.2.2.toList = row.1.name := by decide
  exact hrows _ h

theorem pairs_spec {r : RegPair} {n : Nat} {name : String} (h : (r, n, name) ∈ pairs) :
    n = r.code ∧ name.toList = r.name := by
  have hrows : ∀ row ∈ pairs, row.2.1 = row.1.code ∧ row.2.2.toList = row.1.name := by decide
  exact hrows _ h

theorem stackPairs_spec {r : StackPair} {n : Nat} {name : String} (h : (r, n, name) ∈ stackPairs) :
    n = r.code ∧ name.toList = r.name := by
  have hrows : ∀ row ∈ stackPairs, row.2.1 = row.1.code ∧ row.2.2.toList = row.1.name := by decide
  exact hrows _ h

theorem indexPairs_spec {r : IndexPair} {n : Nat} {name : String} (h : (r, n, name) ∈ indexPairs) :
    n = r.code ∧ name.toList = r.name := by
  have hrows : ∀ row ∈ indexPairs, row.2.1 = row.1.code ∧ row.2.2.toList = row.1.name := by decide
  exact hrows _ h

theorem code_eq_six_iff (r : Reg8) : r.code = 6 ↔ r = .m := by
  cases r <;> decide

theorem movFormExists_iff (dst src : Reg8) : movFormExists dst src = true ↔ ¬(dst.code = 6 ∧ src.code = 6) := by
  simp only [movFormExists, code_eq_six_iff, Bool.not_eq_true', Bool.and_eq_false_iff, beq_eq_false_iff_ne, not_and_or]

theorem isUndefinedOpcode_iff (op : Byte) : isUndefinedOpcode op = true ↔ op ∈ undefinedSet :=
  List.contains_iff_mem

/-! ## The rows -/

/-- Settles O34: class None. -/
theorem lowPlainInstructionsShowTheirName : Obligations.LowPlainInstructionsShowTheirName := by
  intro s h row hrow
  fin_cases hrow <;> exact renders_none h rfl rfl rfl

/-- Settles O35: class Immediate16ToRegister. -/
theorem lxiShowsPairAndWord : Obligations.LxiShowsPairAndWord := by
  intro s h r n name imm hr
  obtain ⟨rfl, hname⟩ := pairs_spec hr
  rw [hname]
  exact renders_imm16ToRegister h rfl rfl rfl

/-- Settles O36: class SingleRegister, with the pair's name. -/
theorem pairInstructionsShowTheirPair : Obligations.PairInstructionsShowTheirPair := by
  refine fun s h => ⟨fun row hrow r n name hr => ?_, fun row hrow r n name hr => ?_⟩
  · obtain ⟨rfl, hname⟩ := pairs_spec hr
    rw [hname]
    fin_cases hrow <;> exact renders_register h rfl rfl rfl
  · obtain ⟨rfl, hname⟩ := indexPairs_spec hr
    rw [hname]
    fin_cases hrow <;> exact renders_register h rfl rfl rfl

/-- Settles O37: class SingleRegister. -/
theorem incrementAndDecrementShowTheirRegister : Obligations.IncrementAndDecrementShowTheirRegister := by
  intro s h row hrow r n name hr
  obtain ⟨rfl, hname⟩ := registers_spec hr
  rw [hname]
  fin_cases hrow <;> exact renders_register h rfl rfl rfl

/-- Settles O38: class Immediate8ToRegister. -/
theorem mviShowsRegisterAndByte : Obligations.MviShowsRegisterAndByte := by
  intro s h r n name imm hr
  obtain ⟨rfl, hname⟩ := registers_spec hr
  rw [hname]
  exact renders_imm8ToRegister h rfl rfl rfl

/-- Settles O39: class Immediate16Standalone. -/
theorem directAddressInstructionsShowTheirAddress : Obligations.DirectAddressInstructionsShowTheirAddress := by
  intro s h row hrow imm
  fin_cases hrow <;> exact renders_imm16 h rfl rfl rfl

/-- Settles O40: class RegisterPair for the forms that exist; the meaning of MOV refuses the one that does not. -/
theorem movShowsDestinationAndSource : Obligations.MovShowsDestinationAndSource := by
  refine ⟨fun s h dst src n k dstName srcName hdst hsrc hform => ?_, fun _ => rfl⟩
  obtain ⟨rfl, hdstName⟩ := registers_spec hdst
  obtain ⟨rfl, hsrcName⟩ := registers_spec hsrc
  rw [hdstName, hsrcName]
  exact renders_registerPair h ((movFormExists_iff dst src).mpr hform) rfl rfl

/-- Settles O41: class SingleRegister. -/
theorem registerArithmeticShowsItsRegister : Obligations.RegisterArithmeticShowsItsRegister := by
  intro s h row hrow r n name hr
  obtain ⟨rfl, hname⟩ := registers_spec hr
  rw [hname]
  fin_cases hrow <;> exact renders_register h rfl rfl rfl

/-- Settles O42: class SingleRegister, with the pair's name. -/
theorem stackInstructionsShowTheirPair : Obligations.StackInstructionsShowTheirPair := by
  intro s h row hrow r n name hr
  obtain ⟨rfl, hname⟩ := stackPairs_spec hr
  rw [hname]
  fin_cases hrow <;> exact renders_register h rfl rfl rfl

/-- Settles O43: class Immediate8Standalone. -/
theorem immediateArithmeticShowsItsByte : Obligations.ImmediateArithmeticShowsItsByte := by
  intro s h row hrow imm
  fin_cases hrow <;> exact renders_imm8 h rfl rfl rfl

/-- Settles O44: class Immediate16Standalone. -/
theorem jumpsAndCallsShowTheirAddress : Obligations.JumpsAndCallsShowTheirAddress := by
  intro s h row hrow imm
  fin_cases hrow <;> exact renders_imm16 h rfl rfl rfl

/-- Settles O45: class None. -/
theorem returnsAndExchangesShowTheirName : Obligations.ReturnsAndExchangesShowTheirName := by
  intro s h row hrow
  fin_cases hrow <;> exact renders_none h rfl rfl rfl

/-- Settles O46: HLT, DI and EI are of class None, RST of class SingleRegister with its digit as the name (decision D5), OUT
and IN of class Immediate8Standalone. -/
theorem systemInstructionsAreRenderedOnly : Obligations.SystemInstructionsAreRenderedOnly := by
  refine fun s h => ⟨fun row hrow => ?_, fun row hrow => ?_, fun row hrow imm => ?_⟩
  · fin_cases hrow <;> exact renders_none h rfl rfl rfl
  · fin_cases hrow <;> exact renders_register h rfl rfl rfl
  · fin_cases hrow <;> exact renders_imm8 h rfl rfl rfl

/-- Settles O47: the sentinel's entry is of class None; the meaning of `--` refuses every other opcode. -/
theorem undefinedOpcodesShowTheSentinel : Obligations.UndefinedOpcodesShowTheSentinel :=
  ⟨fun _ h op hop => renders_none h ((isUndefinedOpcode_iff op).mpr hop) (mnemonic := "--") rfl rfl,
    fun _ op hop => if_neg fun hundefined => hop ((isUndefinedOpcode_iff op).mp hundefined)⟩

end Sys2Proof.Proofs
end
